-- ==== Sys2Proof/Word.lean ====
section
/-! DEFINITION. The bit vectors of the block: bytes and 16-bit values (00_scope.md R11). -/

namespace Sys2Proof

/-- A byte, bit 7 the most significant (R11). -/
abbrev Byte := BitVec 8

/-- A 16-bit value: `LEN`, `FR_LEN`, the CRC accumulator and checksums (R9, R11). -/
abbrev Word16 := BitVec 16

end Sys2Proof
end

