-- ==== Sys2Proof/Config.lean ====
section
/-! DEFINITION. The open parameters of 00_scope.md R10, as constants of a run that no proof can evaluate. -/

namespace Sys2Proof.Config

/-- `P_LEN0` (R10, R120): what the deframer does with a frame whose LEN field is 0. -/
inductive Len0Policy where
  | deliver
  | discard
  deriving DecidableEq, Repr, Inhabited

/-- `P_HDR_SHORT` (R10, R122): whether header bytes received before a read timeout are kept. -/
inductive HdrShortPolicy where
  | keep
  | discard
  deriving DecidableEq, Repr, Inhabited

/-- The two channel-monitor opcodes; the domain of `P_CHMON_OP1` (R10, R200). -/
inductive ChmonOp where
  | op4F
  | op50
  deriving DecidableEq, Repr, Inhabited

/-- The domain of `P_CKSUM_ORDER` (R10). -/
inductive ByteOrder where
  | big
  | little
  deriving DecidableEq, Repr, Inhabited

/-- `P_EA_LAYOUT` (R10, R85): the offsets of the five fields of a data frame in a 0xEA payload. -/
structure EaLayout where
  serviceId : Nat
  frameIndex : Nat
  declaredLength : Nat
  checksum : Nat
  data : Nat
  deriving DecidableEq, Repr, Inhabited

/-- The parameters of R10. DESIGN CHOICE (log 5): one record, so that an operation takes them as an argument.
`gainSpan` is `P_GAIN_MAX - P_GAIN_MIN`, which makes `P_GAIN_MIN <= P_GAIN_MAX` hold by form. The fields named
`Raw` are read only through the functions below, which keep a payload within the LEN field (log 6). -/
structure Params where
  len0 : Len0Policy
  hdrShort : HdrShortPolicy
  gainMin : Int
  gainSpan : Nat
  gainEnc : Int → Byte
  chmonOp1 : ChmonOp
  directArgs1Raw : List Byte
  directArgs3Raw : List Byte
  dataFwRaw : Option (Byte × List Byte)
  auxPrefixRaw : Option (List Byte)
  eaSubcode : Byte
  eaLayout : EaLayout
  cksumOrder : ByteOrder
  readTimeout : Nat
  backoff : Nat
  directDelay : Nat
  deriving Inhabited

/-- `P_GAIN_MAX` (R10, R185). -/
def Params.gainMax (P : Params) : Int := P.gainMin + P.gainSpan

/-- `P_DIRECT_ARGS1` (R10, R205). DEDUCED (log 6): at most 65533 bytes, so that `74 00 ++ P_DIRECT_ARGS1` fits LEN. -/
def Params.directArgs1 (P : Params) : List Byte := P.directArgs1Raw.take 65533

/-- `P_DIRECT_ARGS3` (R10, R207). DEDUCED (log 6): at most 65533 bytes. -/
def Params.directArgs3 (P : Params) : List Byte := P.directArgs3Raw.take 65533

/-- `P_DATA_FW_PAYLOAD` (R10, R209), `none` for NONE. DEDUCED (log 6): 1 to 65535 bytes (R71: a catalog command has LEN ≥ 1). -/
def Params.dataFwPayload (P : Params) : Option (List Byte) :=
  match P.dataFwRaw with
  | none => none
  | some (b, rest) => some (b :: rest.take 65534)

/-- `P_AUX_PREFIX` (R10, R210), `none` for NONE. DEDUCED (log 6): at most 65534 bytes, since one byte follows. -/
def Params.auxPrefix (P : Params) : Option (List Byte) :=
  match P.auxPrefixRaw with
  | none => none
  | some bytes => some (bytes.take 65534)

/-- The parameters of this run (R10, R20: constants of a run and not state). No body: nothing evaluates it (log 5). -/
opaque params : Params

/-- FREE VALUE (log 7): a gain a gain byte may stand for. The spec gives no inverse of `P_GAIN_ENC` (R77, D17); only
the decoder reads this. -/
opaque gainOf : Byte → Int

end Sys2Proof.Config
end

