-- ==== Sys2Proof/Syntax.lean ====
section
/-! DEFINITION. The host operations of the block: one constructor per operation of spec/opcode_table.json (30_encoding.md R95). -/

namespace Sys2Proof

/-- A request's operation with its operands (10_state.md R22). A `u8` or `int` operand is carried as an unbounded
integer (00_scope.md R15), a `bool` as a `Bool`, a byte string as a list of bytes. Operand order is R78's. -/
inductive Instr where
  /-- `POWER_UP` (R183) -/
  | powerUp (chLabelLen catLabelLen titleLabelLen : Int) (lossExpected : Bool)
  /-- `POWER_DOWN` (R184) -/
  | powerDown (powerSave : Bool)
  /-- `SET_LINE_LEVEL` (R185) -/
  | setLineLevel (gain : Int)
  /-- `CHANGE_CHANNEL` (R186) -/
  | changeChannel (bySid : Bool) (channel : Int) (dataFlag : Bool) (progType : Int)
  /-- `CANCEL_CHANNEL` (R188) -/
  | cancelChannel (channel : Int) (dataFlag : Bool)
  /-- `MUTE` (R189) -/
  | mute (on : Bool)
  /-- `EXT_INFO` (R190) -/
  | extInfo (channel : Int)
  /-- `CHANNEL_INFO` (R191) -/
  | channelInfo (bySid : Bool) (channel progType : Int)
  /-- `RADIO_ID` (R193) -/
  | radioId
  /-- `SIGNAL_MONITOR` (R194) -/
  | signalMonitor (toggle : Bool)
  /-- `SIGNAL_INFO` (R195) -/
  | signalInfo
  /-- `CLOCK_MONITOR` (R196) -/
  | clockMonitor (toggle : Bool)
  /-- `DATA_SELECT` (R197) -/
  | dataSelect (sid : Int) (flag1 flag2 : Bool)
  /-- `DATA_PING` (R198) -/
  | dataPing
  /-- `CHANNEL_MONITOR` (R200): both opcode rows of the table are this one command -/
  | channelMonitor (channel : Int) (servMon typeMon infoMon extMon override : Bool)
  /-- `DIAG_MONITOR` (R202) -/
  | diagMonitor (toggle : Bool)
  /-- `FW_VERSION` (R203) -/
  | fwVersion
  /-- `DIRECT_LISTEN` (R205) -/
  | directListen
  /-- `DIRECT_POWER` (R206) -/
  | directPower (flag1 flag2 : Bool)
  /-- `DIRECT_UNMUTE` (R207) -/
  | directUnmute
  /-- `DATA_FW_VERSION` (R209) -/
  | dataFwVersion
  /-- `AUX_TOGGLE` (R210) -/
  | auxToggle (toggle : Bool)
  /-- `SEND_RAW` (40_framer.md R110) -/
  | sendRaw (payload : List Byte)
  /-- `CRC_INIT` (41_checksum.md R152) -/
  | crcInit
  /-- `CRC_BYTE` (R153) -/
  | crcByte (b : Int)
  /-- `CRC_READ` (R154) -/
  | crcRead
  /-- `CRC_COMPUTE` (R155) -/
  | crcCompute (data : List Byte)
  /-- `CRC_VALIDATE` (R160) -/
  | crcValidate (data : List Byte) (checksum : Int)
  /-- `DIRECT_ENABLE` (42_command_encoder.md R220) -/
  | directEnable (flag1 flag2 : Bool)
  /-- `OPEN` (70_reset_and_hazards.md R274) -/
  | openSession
  /-- `CLOSE` (R273) -/
  | closeSession
  deriving DecidableEq, Repr

end Sys2Proof
end

