-- ==== Sys2Proof/Machine/Operands.lean ====
section
/-! DEFINITION. The operand forms: range checks (42_command_encoder.md R181) and field encodings (30_encoding.md R77). -/

namespace Sys2Proof.Machine

open Sys2Proof.Config

/-- The check of one `u8` operand (R181): whether `v < 0 or v > 255`. -/
def u8Fails (v : Int) : Bool := decide (v < 0) || decide (v > 255)

/-- `CheckU8` over the `u8` operands, in operand order: the index of the first that fails (R181). -/
def checkU8 : List (Nat × Int) → Option Nat
  | [] => none
  | (k, v) :: rest => if u8Fails v then some k else checkU8 rest

/-- The range check of `CRC_VALIDATE`'s checksum (R160). -/
def u16Fails (v : Int) : Bool := decide (v < 0) || decide (v > 65535)

/-- Field kind `u8` (R77): the operand value as a byte; used after the range check. -/
def byteOf (v : Int) : Byte := BitVec.ofInt 8 v

/-- Field kind `bool` (R15, R77): `0x01` if true, `0x00` if false. -/
def encBool (b : Bool) : Byte := if b then 0x01#8 else 0x00#8

/-- Field kind `mode10` (R77, R186): `0x01` by service id, `0x02` by number. -/
def mode10 (bySid : Bool) : Byte := if bySid then 0x01#8 else 0x02#8

/-- Field kind `mode25` (R77, R191): `0x07` by service id, `0x08` by number. -/
def mode25 (bySid : Bool) : Byte := if bySid then 0x07#8 else 0x08#8

/-- Field kind `route` (R77, R186): `0x01 + enc_bool(data_flag)`. -/
def routeByte (dataFlag : Bool) : Byte := 0x01#8 + encBool dataFlag

/-- `clamp(g, P_GAIN_MIN, P_GAIN_MAX)` (R77, R185). -/
def clampGain (P : Params) (gain : Int) : Int := min (max gain P.gainMin) P.gainMax

/-- Field kind `gain` (R77, R185): `P_GAIN_ENC` of the clamped gain. -/
def gainByte (P : Params) (gain : Int) : Byte := P.gainEnc (clampGain P gain)

/-- The byte of a channel-monitor opcode (R200). -/
def chmonByte : ChmonOp → Byte
  | .op4F => 0x4F#8
  | .op50 => 0x50#8

/-- `other` of R200: `other(0x50) = 0x4F`, `other(0x4F) = 0x50`. -/
def chmonOther : ChmonOp → ChmonOp
  | .op4F => .op50
  | .op50 => .op4F

/-- The channel-monitor opcode for a selector value (R200): `P_CHMON_OP1` when it is 1, the other value when it is 0. -/
def chmonSelect (P : Params) (sel : Bool) : ChmonOp := if sel then P.chmonOp1 else chmonOther P.chmonOp1

/-- `be16(w)` (R12): the high byte, then the low byte. -/
def be16 (w : Word16) : List Byte := [w.extractLsb' 8 8, w.extractLsb' 0 8]

/-- `be16_val(h, l) = (h << 8) | l` (R12). -/
def be16Val (h l : Byte) : Word16 := (h.setWidth 16 <<< 8) ||| l.setWidth 16

end Sys2Proof.Machine
end

