-- ==== Sys2Proof/WellFormed.lean ====
section
/-! DEFINITION. Well-formed requests: those whose operands are in the ranges the spec gives (00_scope.md R15, 42_command_encoder.md R181). -/

namespace Sys2Proof

/-- The range of a `u8` operand, `0..=255` (R15). -/
def inU8 (v : Int) : Bool := decide (0 ≤ v ∧ v ≤ 255)

/-- The range of `CRC_VALIDATE`'s checksum, `0..=65535` (R160). -/
def inU16 (v : Int) : Bool := decide (0 ≤ v ∧ v ≤ 65535)

/-- The operands of `i` that are range-checked, each with its operand index and whether it is in range, in operand
order (R78's operand column; R110, R153 and R160 for the host operations). -/
def Instr.ranges : Instr → List (Nat × Bool)
  | .powerUp a b c _ => [(0, inU8 a), (1, inU8 b), (2, inU8 c)]
  | .powerDown _ => []
  | .setLineLevel _ => []
  | .changeChannel _ ch _ pt => [(1, inU8 ch), (3, inU8 pt)]
  | .cancelChannel ch _ => [(0, inU8 ch)]
  | .mute _ => []
  | .extInfo ch => [(0, inU8 ch)]
  | .channelInfo _ ch pt => [(1, inU8 ch), (2, inU8 pt)]
  | .radioId => []
  | .signalMonitor _ => []
  | .signalInfo => []
  | .clockMonitor _ => []
  | .dataSelect sid _ _ => [(0, inU8 sid)]
  | .dataPing => []
  | .channelMonitor ch _ _ _ _ _ => [(0, inU8 ch)]
  | .diagMonitor _ => []
  | .fwVersion => []
  | .directListen => []
  | .directPower _ _ => []
  | .directUnmute => []
  | .dataFwVersion => []
  | .auxToggle _ => []
  | .sendRaw p => [(0, decide (p.length ≤ 65535))]
  | .crcInit => []
  | .crcByte b => [(0, inU8 b)]
  | .crcRead => []
  | .crcCompute _ => []
  | .crcValidate _ c => [(1, inU16 c)]
  | .directEnable _ _ => []
  | .openSession => []
  | .closeSession => []

/-- The index of the first operand out of range, if there is one (R181: "The first failing operand is reported"). -/
def Instr.firstFailing (i : Instr) : Option Nat := (i.ranges.find? (fun r => !r.2)).map (·.1)

/-- A request none of whose operands is out of range. -/
def Instr.wf (i : Instr) : Bool := i.ranges.all (·.2)

end Sys2Proof
end

