-- ==== Sys2Proof/Decode.lean ====
section
/-! DEFINITION. The decoder of command payloads (30_encoding.md R79, R80), the encoder (R75 to R78), and the table's words. -/

namespace Sys2Proof

open Sys2Proof.Config Sys2Proof.Machine

/-- Why the decoder gives no instruction for a payload. -/
inductive DecodeError where
  /-- an empty payload: there is no opcode byte -/
  | emptyPayload
  /-- a first byte the catalog does not use (R80) -/
  | reservedOpcode (op : Byte)
  /-- a second byte under `4A`, `70` or `74` the catalog does not use (R80) -/
  | reservedSubcode (op sub : Byte)
  /-- fewer bytes than the row's format (R76) needs -/
  | truncatedPayload (op : Byte)
  /-- the row is found, but no request produces this payload: a length, mode, flag or route byte the row does not have -/
  | notProduced (op : Byte)
  deriving DecidableEq, Repr

/-- The reading of a `bool` byte. The encoder writes `00` and `01` only; any other byte reads as true
(DESIGN CHOICE, log 8: `decodePayload` refuses it). -/
def decBool (b : Byte) : Bool := b != 0x00#8

/-- The reading of a `mode10` byte: by service id exactly when it is `01` (log 8). -/
def decMode10 (b : Byte) : Bool := b == 0x01#8

/-- The reading of a `mode25` byte: by service id exactly when it is `07` (log 8). -/
def decMode25 (b : Byte) : Bool := b == 0x07#8

/-- The reading of a `u8` byte. -/
def decU8 (b : Byte) : Int := Int.ofNat b.toNat

/-- The `override` operand that makes `CHANNEL_MONITOR` send `op` while `DATA_MODE_ACTIVE = dataMode` (R200 read backwards). -/
def decOverride (P : Params) (dataMode : Bool) (op : ChmonOp) : Bool :=
  Bool.xor (op == P.chmonOp1) dataMode

/-- The operands of the rows with a one-byte prefix, from the bytes after it: the instruction and the rest. -/
def lookupOne (P : Params) (dataMode : Bool) (op : Byte) (args : List Byte) :
    Except DecodeError (Instr × List Byte) :=
  match op.toNat, args with
  | 0x00, a :: b :: c :: l :: rest => .ok (.powerUp (decU8 a) (decU8 b) (decU8 c) (decBool l), rest)
  | 0x00, _ => .error (.truncatedPayload op)
  | 0x01, a :: rest => .ok (.powerDown (decBool a), rest)
  | 0x01, _ => .error (.truncatedPayload op)
  | 0x0B, g :: rest => .ok (.setLineLevel (gainOf g), rest)
  | 0x0B, _ => .error (.truncatedPayload op)
  | 0x10, m :: c :: d :: p :: _ :: rest => .ok (.changeChannel (decMode10 m) (decU8 c) (decBool d) (decU8 p), rest)
  | 0x10, _ => .error (.truncatedPayload op)
  | 0x11, c :: d :: rest => .ok (.cancelChannel (decU8 c) (decBool d), rest)
  | 0x11, _ => .error (.truncatedPayload op)
  | 0x13, a :: rest => .ok (.mute (decBool a), rest)
  | 0x13, _ => .error (.truncatedPayload op)
  | 0x22, c :: rest => .ok (.extInfo (decU8 c), rest)
  | 0x22, _ => .error (.truncatedPayload op)
  | 0x25, m :: c :: p :: rest => .ok (.channelInfo (decMode25 m) (decU8 c) (decU8 p), rest)
  | 0x25, _ => .error (.truncatedPayload op)
  | 0x31, rest => .ok (.radioId, rest)
  | 0x42, a :: rest => .ok (.signalMonitor (decBool a), rest)
  | 0x42, _ => .error (.truncatedPayload op)
  | 0x43, rest => .ok (.signalInfo, rest)
  | 0x4E, a :: rest => .ok (.clockMonitor (decBool a), rest)
  | 0x4E, _ => .error (.truncatedPayload op)
  | 0x4F, c :: a :: b :: d :: e :: rest =>
    .ok (.channelMonitor (decU8 c) (decBool a) (decBool b) (decBool d) (decBool e) (decOverride P dataMode .op4F), rest)
  | 0x4F, _ => .error (.truncatedPayload op)
  | 0x50, c :: a :: b :: d :: e :: rest =>
    .ok (.channelMonitor (decU8 c) (decBool a) (decBool b) (decBool d) (decBool e) (decOverride P dataMode .op50), rest)
  | 0x50, _ => .error (.truncatedPayload op)
  | 0x60, a :: rest => .ok (.diagMonitor (decBool a), rest)
  | 0x60, _ => .error (.truncatedPayload op)
  | _, _ => .error (.reservedOpcode op)

/-- The operands of the rows with a two-byte prefix, from the bytes after it. -/
def lookupTwo (op sub : Byte) (args : List Byte) : Except DecodeError (Instr × List Byte) :=
  match op.toNat, sub.toNat, args with
  | 0x4A, 0x10, s :: a :: b :: rest => .ok (.dataSelect (decU8 s) (decBool a) (decBool b), rest)
  | 0x4A, 0x10, _ => .error (.truncatedPayload op)
  | 0x4A, 0x43, rest => .ok (.dataPing, rest)
  | 0x70, 0x05, rest => .ok (.fwVersion, rest)
  | 0x74, 0x00, rest => .ok (.directListen, rest)
  | 0x74, 0x02, a :: b :: rest => .ok (.directPower (decBool a) (decBool b), rest)
  | 0x74, 0x02, _ => .error (.truncatedPayload op)
  | 0x74, 0x0B, rest => .ok (.directUnmute, rest)
  | _, _, _ => .error (.reservedSubcode op sub)

/-- The first bytes under which the second byte selects the row (R79). -/
def twoBytePrefix (op : Byte) : Bool := op == 0x4A#8 || op == 0x70#8 || op == 0x74#8

/-- The lookup of R79: the command is found from the first byte, and from the second under `4A`, `70` and `74`; its
operands are read from the bytes of its row, and the bytes after them are given back. `dataMode` is the value of
`DATA_MODE_ACTIVE` the payload was built under. -/
def lookup (P : Params) (dataMode : Bool) : List Byte → Except DecodeError (Instr × List Byte)
  | [] => .error .emptyPayload
  | op :: args =>
    if twoBytePrefix op then
      match args with
      | [] => .error (.truncatedPayload op)
      | sub :: rest => lookupTwo op sub rest
    else lookupOne P dataMode op args

/-- The payload of a command (R75 to R78), for operands in range: `none` for the host operations, which have no wire
encoding (R95), and for a command whose parameter is NONE (R208). -/
def encode (P : Params) (dataMode : Bool) : Instr → Option (List Byte)
  | .powerUp a b c l => some [0x00#8, byteOf a, byteOf b, byteOf c, encBool l]
  | .powerDown p => some [0x01#8, encBool p]
  | .setLineLevel g => some [0x0B#8, gainByte P g]
  | .changeChannel sid ch d pt => some [0x10#8, mode10 sid, byteOf ch, encBool d, byteOf pt, routeByte d]
  | .cancelChannel ch d => some [0x11#8, byteOf ch, encBool d]
  | .mute m => some [0x13#8, encBool m]
  | .extInfo ch => some [0x22#8, byteOf ch]
  | .channelInfo sid ch pt => some [0x25#8, mode25 sid, byteOf ch, byteOf pt]
  | .radioId => some [0x31#8]
  | .signalMonitor t => some [0x42#8, encBool t]
  | .signalInfo => some [0x43#8]
  | .clockMonitor t => some [0x4E#8, encBool t]
  | .dataSelect sid f1 f2 => some [0x4A#8, 0x10#8, byteOf sid, encBool f1, encBool f2]
  | .dataPing => some [0x4A#8, 0x43#8]
  | .channelMonitor ch sv ty inf ext ov =>
    some [chmonByte (chmonSelect P (Bool.xor dataMode ov)), byteOf ch, encBool sv, encBool ty, encBool inf, encBool ext]
  | .diagMonitor t => some [0x60#8, encBool t]
  | .fwVersion => some [0x70#8, 0x05#8]
  | .directListen => some ([0x74#8, 0x00#8] ++ P.directArgs1)
  | .directPower f1 f2 => some [0x74#8, 0x02#8, encBool f1, encBool f2]
  | .directUnmute => some ([0x74#8, 0x0B#8] ++ P.directArgs3)
  | .dataFwVersion => P.dataFwPayload
  | .auxToggle t => P.auxPrefix.map (· ++ [encBool t])
  | .sendRaw _ => none
  | .crcInit => none
  | .crcByte _ => none
  | .crcRead => none
  | .crcCompute _ => none
  | .crcValidate _ _ => none
  | .directEnable _ _ => none
  | .openSession => none
  | .closeSession => none

/-- Whether a request of this instruction produces exactly this payload. A gain byte stands for any gain (log 7), so
only the length of `SET_LINE_LEVEL` is compared. -/
def producedBy (P : Params) (dataMode : Bool) (i : Instr) (p : List Byte) : Bool :=
  match i with
  | .setLineLevel _ => p.length == 2
  | _ => encode P dataMode i == some p

/-- The commands whose payload rests on a parameter: found only when the parameter is given (R79). DESIGN CHOICE
(log 20): a payload that equals both `P_DATA_FW_PAYLOAD` and `P_AUX_PREFIX` with a bool byte is `DATA_FW_VERSION`. -/
def lookupParameter (P : Params) (p : List Byte) (e : DecodeError) : Except DecodeError Instr :=
  if encode P false .dataFwVersion == some p then .ok .dataFwVersion
  else if encode P false (.auxToggle false) == some p then .ok (.auxToggle false)
  else if encode P false (.auxToggle true) == some p then .ok (.auxToggle true)
  else .error e

/-- The decoder of whole payloads: the request that produces exactly `p`, or a refusal by name. A row with fixed
bytes comes before a parameter that collides with it (DESIGN CHOICE, log 20; R79 says only that they may collide). -/
def decodePayload (P : Params) (dataMode : Bool) (p : List Byte) : Except DecodeError Instr :=
  match lookup P dataMode p with
  | .ok (i, _) =>
    if producedBy P dataMode i p then .ok i else lookupParameter P p (.notProduced (p.headD 0x00#8))
  | .error e => lookupParameter P p e

/-- The low 16 bits of a table word that are a two-byte prefix of R75, first wire byte in bits 15..8 as the table
writes them. -/
def tablePrefix (w : Nat) : Bool :=
  [0x4A10, 0x4A43, 0x7005, 0x7400, 0x7402, 0x740B].contains (w % 65536)

/-- `n` bytes of `w` from its low end, the lowest first. -/
def bytesUp : Nat → Nat → List Byte
  | 0, _ => []
  | n + 1, w => BitVec.ofNat 8 w :: bytesUp n (w / 256)

/-- The payload bytes of a table word in wire order, eight of them (log 9): the table writes a two-byte prefix as one
big-endian number, its first word; every later byte counts on from it. -/
def tableBytes (nbits w : Nat) : List Byte :=
  let v := w % 2 ^ nbits
  if tablePrefix v && decide (16 ≤ nbits) then
    BitVec.ofNat 8 (v / 256) :: BitVec.ofNat 8 v :: bytesUp 6 (v / 65536)
  else bytesUp 8 v

/-- The instruction the decoder reads from a table word (R79's lookup, under `DATA_MODE_ACTIVE = 0`). -/
def decodeTableWord (nbits w : Nat) : Option Instr :=
  match lookup Config.params false (tableBytes nbits w) with
  | .ok (i, _) => some i
  | .error _ => none

end Sys2Proof
end

