-- ==== Sys2Proof/Machine/State.lean ====
section
/-! DEFINITION. The state of the block (10_state.md R20 to R36, R41), the faults and refusals, and reset. -/

namespace Sys2Proof.Machine

/-- `RX_MODE` (R23): STOPPED, HDR, BODY. The fourth code is reserved and never written (log 16). -/
inductive RxMode where
  | stopped
  | hdr
  | body
  deriving DecidableEq, Repr

/-- `SEQ_STEP` (R31): IDLE, WAIT1, WAIT2, WAIT3. -/
inductive SeqStep where
  | idle
  | wait1
  | wait2
  | wait3
  deriving DecidableEq, Repr

/-- The status codes of 60_exceptions.md R240. The last two are never raised by the block. -/
inductive Status where
  | ok
  | cancelled
  | headerMismatch
  | truncatedBody
  | transportUnavailable
  | checksumMismatch
  | invalidArgument
  | emptyFrame
  | refused
  | payloadLengthMismatch
  | unknownResponseCode
  deriving DecidableEq, Repr

/-- The commands the source names without an encoding (42_command_encoder.md R209, R210). -/
inductive Unencoded where
  | dataFwVersion
  | auxToggle
  deriving DecidableEq, Repr

/-- What a reply or a status event carries beside the status (R240's column "info recorded", R22's data). -/
inductive Info where
  /-- nothing -/
  | none
  /-- the payload sent (R111) -/
  | payload (p : List Byte)
  /-- the three payloads of a direct-enable sequence (R224) -/
  | payloads (p1 p2 p3 : List Byte)
  /-- the CRC of `CRC_READ` and `CRC_COMPUTE` (R154, R155) -/
  | crc (w : Word16)
  /-- the received and the computed checksum (R160) -/
  | checksums (received computed : Word16)
  /-- the index of the first failing operand (R181) -/
  | operand (k : Nat)
  /-- the number of the failing step of the sequence (R225) -/
  | seqStep (k : Nat)
  /-- the command refused (R208) -/
  | command (c : Unencoded)
  /-- the discarded header bytes (R115, R122) -/
  | header (h : List Byte)
  /-- `FR_LEN` and the number of body bytes received (R123) -/
  | truncated (frLen : Word16) (received : Nat)
  deriving DecidableEq, Repr

/-- An event of `EVQ` (R35). -/
inductive Event where
  /-- `EV_PAYLOAD(p)` -/
  | payload (p : List Byte)
  /-- `EV_STATUS(code, info)` -/
  | status (code : Status) (info : Info)
  /-- `EV_CMD_SENT(p)` -/
  | cmdSent (p : List Byte)
  deriving DecidableEq, Repr

/-- A request presented at the port `REQ` (R22), with the requester who presents it. -/
structure Request where
  requester : Nat
  op : Instr
  deriving DecidableEq, Repr

/-- The two requests that are held between their accepting and their completion step (R273, R274). -/
inductive JoinKind where
  | opening
  | closing
  deriving DecidableEq, Repr

/-- An accepted `OPEN` or `CLOSE` that waits for the deframer to be STOPPED. -/
structure Join where
  requester : Nat
  kind : JoinKind
  deriving DecidableEq, Repr

/-- The response to a request, `{status, data}` (R22), with the requester it goes to. -/
structure Reply where
  requester : Nat
  status : Status
  info : Info
  deriving DecidableEq, Repr

/-- One entry of the agenda: a step of an agent, or an input of the environment (60_exceptions.md R258). -/
inductive Turn where
  /-- a requester presents a request at the port (R22) -/
  | present (requester : Nat) (op : Instr)
  /-- the request agent serves the request this requester presents -/
  | serve (requester : Nat)
  /-- the request agent takes the completion step of the held `OPEN` or `CLOSE` -/
  | complete
  /-- the deframer takes its enabled step -/
  | deframer
  /-- `RX_BYTE(b)` -/
  | rxByte (b : Byte)
  /-- `RX_TIMEOUT` -/
  | rxTimeout
  /-- `DELAY_DONE` -/
  | delayDone
  /-- `LINK <- 0/1` -/
  | setLink (up : Bool)
  /-- the surrounding session state drives `DATA_MODE_ACTIVE` (R36) -/
  | setDataMode (active : Bool)
  /-- the environment removes the head byte of `TXQ` -/
  | takeTx
  /-- the host removes the head event of `EVQ` -/
  | takeEv
  deriving DecidableEq, Repr

/-- The state of the block: the tuple of R20, the request port and its responses (R22), the requests in service
(R220, R273, R274), and the model's own `serving` (log 15) and `agenda` (log 1). -/
structure State where
  rxMode : RxMode
  hdrBuf : List Byte
  frLen : Word16
  frCode : Byte
  bodyBuf : List Byte
  cancel : Bool
  link : Bool
  crcAcc : Word16
  seqStep : SeqStep
  seqF1 : Bool
  seqF2 : Bool
  dataModeActive : Bool
  rxq : List Byte
  txq : List Byte
  evq : List Event
  reqPort : List Request
  join : Option Join
  seqReq : Option Nat
  replies : List Reply
  serving : Nat
  agenda : List Turn
  deriving DecidableEq, Repr

/-- No constructor: nothing faults. Every error of the block is a status value, after which it goes on (R246; log 17). -/
inductive Fault where
  deriving DecidableEq, Repr

/-- Why a step gives no next state. -/
inductive Refusal where
  /-- raised by an arm of `exec` for an instruction with no meaning in the model; safe (nothing can be proved of such
  a step). No arm raises it. -/
  | notModelled (mnemonic : String)
  deriving DecidableEq, Repr

/-- Power-on reset (R41, R270). The inputs `LINK` and `DATA_MODE_ACTIVE` are not driven by it (R271), so they are
arguments. `FR_LEN` and `FR_CODE` are unspecified: DESIGN CHOICE zero, unsafe (logs 2 and 3). -/
def State.powerOn (link dataMode : Bool) : State where
  rxMode := .stopped
  hdrBuf := []
  frLen := 0x0000#16
  frCode := 0x00#8
  bodyBuf := []
  cancel := false
  link := link
  crcAcc := 0xFFFF#16
  seqStep := .idle
  seqF1 := false
  seqF2 := false
  dataModeActive := dataMode
  rxq := []
  txq := []
  evq := []
  reqPort := []
  join := none
  seqReq := none
  replies := []
  serving := 0
  agenda := []

/-- The machine right after reset (R41): `LINK = 0` (R29), `DATA_MODE_ACTIVE` 0 (DESIGN CHOICE, unsafe, log 4). -/
def State.reset : State := State.powerOn false false

end Sys2Proof.Machine
end

