-- ==== Sys2Proof/Machine/Ops.lean ====
section
/-! DEFINITION. The shared operations: the queues, replies and `raise` (00_scope.md R13), the framer's transmit (40_framer.md R111, R112). -/

namespace Sys2Proof.Machine

open Sys2Proof.Config

/-- `emit(ev)`: append to `EVQ` (R13). -/
def emit (ev : Event) (s : State) : State := { s with evq := s.evq ++ [ev] }

/-- `TxPut(bytes)`: append every byte to `TXQ`, in order, in one step (R13, R56). -/
def txPut (bytes : List Byte) (s : State) : State := { s with txq := s.txq ++ bytes }

/-- `RX_BYTE(b)`: append to `RXQ` (R33). -/
def rxPush (b : Byte) (s : State) : State := { s with rxq := s.rxq ++ [b] }

/-- The response to a requester (R22). -/
def replyTo (r : Nat) (st : Status) (info : Info) (s : State) : State :=
  { s with replies := s.replies ++ [⟨r, st, info⟩] }

/-- The served request leaves the port: it is accepted (R22). -/
def accept (s : State) : State :=
  { s with reqPort := s.reqPort.eraseP (fun q => q.requester == s.serving) }

/-- `reply(status, data)` of the request being served, which leaves the port with it (R13, R22). -/
def reply (st : Status) (info : Info) (s : State) : State := replyTo s.serving st info (accept s)

/-- `raise` inside a request: the reply and nothing else (R13, R242). -/
def raiseReply (st : Status) (info : Info) (s : State) : State := reply st info s

/-- `raise` in a step of the deframer or the environment: an `EV_STATUS` event and nothing else (R13, R242). -/
def raiseEvent (st : Status) (info : Info) (s : State) : State := emit (.status st info) s

/-- `FrameEncode(p)` (R112): marker, length, payload, trailer. For `len(p) <= 65535`. -/
def frameEncode (p : List Byte) : List Byte :=
  [0x5A#8, 0xA5#8] ++ be16 (BitVec.ofNat 16 p.length) ++ p ++ [0xED#8, 0xED#8]

/-- `SendFrame(p)` (R111): the status and the state; it writes no reply. -/
def sendFrame (p : List Byte) (s : State) : Status × State :=
  if s.link then (.ok, emit (.cmdSent p) (txPut (frameEncode p) s))
  else (.transportUnavailable, s)

/-- `Transmit(p)` (R111): `SendFrame(p)`, then the reply. -/
def transmit (p : List Byte) (s : State) : State :=
  match sendFrame p s with
  | (.ok, t) => reply .ok (.payload p) t
  | (_, t) => raiseReply .transportUnavailable .none t

/-- The common procedure of a command request (42_command_encoder.md R180, R181): the `u8` operands are checked in
order, each under its operand index; then the payload is framed and sent. -/
def serveCommand (u8s : List (Nat × Int)) (p : List Byte) (s : State) : State :=
  match checkU8 u8s with
  | some k => raiseReply .invalidArgument (.operand k) s
  | none => transmit p s

/-- A command whose payload rests on a parameter (R208): refused when the parameter is NONE, before the link check (R243). -/
def serveParameter (c : Unencoded) (payload : Option (List Byte)) (s : State) : State :=
  match payload with
  | none => raiseReply .refused (.command c) s
  | some p => transmit p s

/-- The requesters with a request at the port or in service. -/
def outstanding (s : State) : List Nat :=
  s.reqPort.map (·.requester) ++ s.join.toList.map (·.requester) ++ s.seqReq.toList

/-- A requester presents a request; each may present one at a time (R22; log 11). -/
def presentRequest (r : Nat) (op : Instr) (s : State) : State :=
  if (outstanding s).contains r then s else { s with reqPort := s.reqPort ++ [⟨r, op⟩] }

/-- The request this requester presents, if it presents one. -/
def presented (r : Nat) (s : State) : Option Request := s.reqPort.find? (fun q => q.requester == r)

/-- A requester with nothing outstanding: one above every requester that has. -/
def freshRequester (s : State) : Nat := (outstanding s).foldr (fun r m => max (r + 1) m) 0

end Sys2Proof.Machine
end

