-- ==== Sys2Proof/Machine/Deframer.lean ====
section
/-! DEFINITION. The deframer's steps and the read timeout (40_framer.md R113 to R128). -/

namespace Sys2Proof.Machine

open Sys2Proof.Config

/-- `rx_avail = (LINK = 1 and not empty(RXQ))` (R113). -/
def rxAvail (s : State) : Bool := s.link && !s.rxq.isEmpty

/-- `DF_TAKE_HDR` is enabled (R114). -/
def takeHdrEnabled (s : State) : Bool :=
  s.rxMode == .hdr && rxAvail s && decide (s.hdrBuf.length < 5) && !(s.hdrBuf.isEmpty && s.cancel)

/-- `DF_TAKE_BODY` is enabled (R118). -/
def takeBodyEnabled (s : State) : Bool :=
  s.rxMode == .body && rxAvail s && decide (s.bodyBuf.length < s.frLen.toNat + 1)

/-- `DF_CANCEL` is enabled (R121). -/
def dfCancelEnabled (s : State) : Bool := s.rxMode == .hdr && s.hdrBuf.isEmpty && s.cancel

/-- `DF_LINK_DOWN` is enabled (R124). -/
def linkDownEnabled (s : State) : Bool := s.rxMode == .hdr && s.hdrBuf.isEmpty && !s.cancel && !s.link

/-- `RX_TIMEOUT` is enabled (R122, R123): the deframer runs and no byte is available. -/
def rxTimeoutEnabled (s : State) : Bool := s.rxMode != .stopped && !rxAvail s

/-- `AcceptHeader()` (R116), for a complete header `m0 m1 hi lo code`. -/
def acceptHeader (hi lo code : Byte) (s : State) : State :=
  { s with frLen := be16Val hi lo, frCode := code, hdrBuf := [], bodyBuf := [], rxMode := .body }

/-- `HeaderCheck()` (R115): bytes 0 and 1 against the marker; nothing happens before the fifth byte. -/
def headerCheck (s : State) : State :=
  match s.hdrBuf with
  | [m0, m1, hi, lo, code] =>
    if m0 != 0x5A#8 || m1 != 0xA5#8 then
      raiseEvent .headerMismatch (.header s.hdrBuf) { s with hdrBuf := [] }
    else acceptHeader hi lo code s
  | _ => s

/-- `DF_TAKE_HDR` (R114). -/
def takeHdr (s : State) : State :=
  match s.rxq with
  | [] => s
  | b :: rest => headerCheck { s with rxq := rest, hdrBuf := s.hdrBuf ++ [b] }

/-- `Len0()` (R120). -/
def deliverLen0 (P : Params) (s : State) : State :=
  match P.len0 with
  | .deliver => emit (.payload [s.frCode]) s
  | .discard => raiseEvent .emptyFrame .none s

/-- Payload delivery (R117) when `FR_LEN + 1` further bytes are in; the last two are discarded unread. -/
def deliver (P : Params) (s : State) : State :=
  let t := if s.frLen = 0x0000#16 then deliverLen0 P s
    else emit (.payload (s.frCode :: s.bodyBuf.take (s.frLen.toNat - 1))) s
  { t with bodyBuf := [], rxMode := .hdr }

/-- `DF_TAKE_BODY` (R118). -/
def takeBody (P : Params) (s : State) : State :=
  match s.rxq with
  | [] => s
  | b :: rest =>
    let t := { s with rxq := rest, bodyBuf := s.bodyBuf ++ [b] }
    if t.bodyBuf.length = t.frLen.toNat + 1 then deliver P t else t

/-- `DF_CANCEL` (R121). -/
def dfCancel (s : State) : State := raiseEvent .cancelled .none { s with rxMode := .stopped }

/-- `DF_LINK_DOWN` (R124). -/
def dfLinkDown (s : State) : State := raiseEvent .transportUnavailable .none s

/-- The deframer's enabled step; with none enabled it holds (R14, R125). -/
def deframerStep (P : Params) (s : State) : State :=
  if takeHdrEnabled s then takeHdr s
  else if takeBodyEnabled s then takeBody P s
  else if dfCancelEnabled s then dfCancel s
  else if linkDownEnabled s then dfLinkDown s
  else s

/-- `RX_TIMEOUT` in HDR (R122). -/
def hdrTimeout (P : Params) (s : State) : State :=
  if s.cancel then raiseEvent .cancelled .none { s with hdrBuf := [], rxMode := .stopped }
  else if s.hdrBuf.isEmpty then s
  else
    match P.hdrShort with
    | .keep => s
    | .discard => raiseEvent .headerMismatch (.header s.hdrBuf) { s with hdrBuf := [] }

/-- `RX_TIMEOUT` in BODY (R123). -/
def bodyTimeout (s : State) : State :=
  raiseEvent .truncatedBody (.truncated s.frLen s.bodyBuf.length) { s with bodyBuf := [], rxMode := .hdr }

/-- `RX_TIMEOUT` (R122, R123); not enabled while a byte is available or the deframer is STOPPED, and then nothing
happens (R125; log 1). -/
def rxTimeout (P : Params) (s : State) : State :=
  if rxTimeoutEnabled s then
    match s.rxMode with
    | .stopped => s
    | .hdr => hdrTimeout P s
    | .body => bodyTimeout s
  else s

end Sys2Proof.Machine
end

