-- ==== Sys2Proof/Machine/Checksum.lean ====
section
/-! DEFINITION. The CRC-16/Genibus unit and the validator (41_checksum.md R150 to R161). -/

namespace Sys2Proof.Machine

/-- One iteration of R151: bit 15 is tested before the shift. -/
def crcShift (acc : Word16) : Word16 :=
  if acc.msb then (acc <<< 1) ^^^ 0x1021#16 else acc <<< 1

/-- `n` iterations. -/
def crcShifts : Nat → Word16 → Word16
  | 0, acc => acc
  | n + 1, acc => crcShifts n (crcShift acc)

/-- `CrcStep(acc, b)` (R151): the byte is XORed into the high byte, then 8 iterations. -/
def crcStep (acc : Word16) (b : Byte) : Word16 := crcShifts 8 (acc ^^^ (b.setWidth 16 <<< 8))

/-- The accumulator after a byte string. -/
def crcFold (acc : Word16) (data : List Byte) : Word16 := data.foldl crcStep acc

/-- `crc16_genibus(data)` (R151). -/
def crc16Genibus (data : List Byte) : Word16 := crcFold 0xFFFF#16 data ^^^ 0xFFFF#16

/-- `CRC_INIT` (R152). -/
def execCrcInit (s : State) : Host.Outcome State Fault Refusal :=
  .next (reply .ok .none { s with crcAcc := 0xFFFF#16 })

/-- `CRC_BYTE` (R153). -/
def execCrcByte (b : Int) (s : State) : Host.Outcome State Fault Refusal :=
  .next (if u8Fails b then raiseReply .invalidArgument (.operand 0) s
    else reply .ok .none { s with crcAcc := crcStep s.crcAcc (byteOf b) })

/-- `CRC_READ` (R154). -/
def execCrcRead (s : State) : Host.Outcome State Fault Refusal :=
  .next (reply .ok (.crc (s.crcAcc ^^^ 0xFFFF#16)) s)

/-- `CRC_COMPUTE` (R155): the accumulator is private, `CRC_ACC` is neither read nor written. -/
def execCrcCompute (data : List Byte) (s : State) : Host.Outcome State Fault Refusal :=
  .next (reply .ok (.crc (crc16Genibus data)) s)

/-- `CRC_VALIDATE` (R160); it checks nothing but the checksum (R161). -/
def execCrcValidate (data : List Byte) (checksum : Int) (s : State) : Host.Outcome State Fault Refusal :=
  .next (if u16Fails checksum then raiseReply .invalidArgument (.operand 1) s
    else
      let received := BitVec.ofInt 16 checksum
      let computed := crc16Genibus data
      if computed = received then reply .ok (.checksums received computed) s
      else raiseReply .checksumMismatch (.checksums received computed) s)

end Sys2Proof.Machine
end

