-- ==== Sys2Proof/Machine/Commands.lean ====
section
/-! DEFINITION. The control-dialect and monitor commands (42_command_encoder.md R183 to R196, R200 to R203). -/

namespace Sys2Proof.Machine

open Sys2Proof.Config

/-- `POWER_UP` (R183). -/
def execPowerUp (a b c : Int) (l : Bool) (s : State) : Host.Outcome State Fault Refusal :=
  .next (serveCommand [(0, a), (1, b), (2, c)] [0x00#8, byteOf a, byteOf b, byteOf c, encBool l] s)

/-- `POWER_DOWN` (R184). -/
def execPowerDown (save : Bool) (s : State) : Host.Outcome State Fault Refusal :=
  .next (serveCommand [] [0x01#8, encBool save] s)

/-- `SET_LINE_LEVEL` under given parameters (R185): the gain is clamped, never refused. -/
def setLineLevel (P : Params) (gain : Int) (s : State) : State :=
  serveCommand [] [0x0B#8, gainByte P gain] s

/-- `SET_LINE_LEVEL` (R185). -/
def execSetLineLevel (gain : Int) (s : State) : Host.Outcome State Fault Refusal :=
  .next (setLineLevel Config.params gain s)

/-- `CHANGE_CHANNEL` (R186). -/
def execChangeChannel (sid : Bool) (ch : Int) (d : Bool) (pt : Int) (s : State) : Host.Outcome State Fault Refusal :=
  .next (serveCommand [(1, ch), (3, pt)] [0x10#8, mode10 sid, byteOf ch, encBool d, byteOf pt, routeByte d] s)

/-- `CANCEL_CHANNEL` (R188). -/
def execCancelChannel (ch : Int) (d : Bool) (s : State) : Host.Outcome State Fault Refusal :=
  .next (serveCommand [(0, ch)] [0x11#8, byteOf ch, encBool d] s)

/-- `MUTE` (R189). -/
def execMute (m : Bool) (s : State) : Host.Outcome State Fault Refusal :=
  .next (serveCommand [] [0x13#8, encBool m] s)

/-- `EXT_INFO` (R190). -/
def execExtInfo (ch : Int) (s : State) : Host.Outcome State Fault Refusal :=
  .next (serveCommand [(0, ch)] [0x22#8, byteOf ch] s)

/-- `CHANNEL_INFO` (R191). -/
def execChannelInfo (sid : Bool) (ch pt : Int) (s : State) : Host.Outcome State Fault Refusal :=
  .next (serveCommand [(1, ch), (2, pt)] [0x25#8, mode25 sid, byteOf ch, byteOf pt] s)

/-- `RADIO_ID` (R193). -/
def execRadioId (s : State) : Host.Outcome State Fault Refusal :=
  .next (serveCommand [] [0x31#8] s)

/-- `SIGNAL_MONITOR` (R194). -/
def execSignalMonitor (t : Bool) (s : State) : Host.Outcome State Fault Refusal :=
  .next (serveCommand [] [0x42#8, encBool t] s)

/-- `SIGNAL_INFO` (R195). -/
def execSignalInfo (s : State) : Host.Outcome State Fault Refusal :=
  .next (serveCommand [] [0x43#8] s)

/-- `CLOCK_MONITOR` (R196). -/
def execClockMonitor (t : Bool) (s : State) : Host.Outcome State Fault Refusal :=
  .next (serveCommand [] [0x4E#8, encBool t] s)

/-- `CHANNEL_MONITOR` under given parameters (R200): `DATA_MODE_ACTIVE` is sampled once, here (R65). -/
def channelMonitor (P : Params) (ch : Int) (sv ty inf ext ov : Bool) (s : State) : State :=
  serveCommand [(0, ch)]
    [chmonByte (chmonSelect P (Bool.xor s.dataModeActive ov)), byteOf ch, encBool sv, encBool ty, encBool inf, encBool ext] s

/-- `CHANNEL_MONITOR` (R200). -/
def execChannelMonitor (ch : Int) (sv ty inf ext ov : Bool) (s : State) : Host.Outcome State Fault Refusal :=
  .next (channelMonitor Config.params ch sv ty inf ext ov s)

/-- `DIAG_MONITOR` (R202). -/
def execDiagMonitor (t : Bool) (s : State) : Host.Outcome State Fault Refusal :=
  .next (serveCommand [] [0x60#8, encBool t] s)

/-- `FW_VERSION` (R203). -/
def execFwVersion (s : State) : Host.Outcome State Fault Refusal :=
  .next (serveCommand [] [0x70#8, 0x05#8] s)

end Sys2Proof.Machine
end

