-- ==== Sys2Proof/Machine/DataMode.lean ====
section
/-! DEFINITION. The data-mode commands (42_command_encoder.md R197 to R199, R208 to R210). -/

namespace Sys2Proof.Machine

open Sys2Proof.Config

/-- `DATA_SELECT` (R197). -/
def execDataSelect (sid : Int) (f1 f2 : Bool) (s : State) : Host.Outcome State Fault Refusal :=
  .next (serveCommand [(0, sid)] [0x4A#8, 0x10#8, byteOf sid, encBool f1, encBool f2] s)

/-- `DATA_PING` (R198). -/
def execDataPing (s : State) : Host.Outcome State Fault Refusal :=
  .next (serveCommand [] [0x4A#8, 0x43#8] s)

/-- `DATA_FW_VERSION` under given parameters (R209). -/
def dataFwVersion (P : Params) (s : State) : State := serveParameter .dataFwVersion P.dataFwPayload s

/-- `DATA_FW_VERSION` (R209). -/
def execDataFwVersion (s : State) : Host.Outcome State Fault Refusal :=
  .next (dataFwVersion Config.params s)

/-- `AUX_TOGGLE` under given parameters (R210). -/
def auxToggle (P : Params) (t : Bool) (s : State) : State :=
  serveParameter .auxToggle (P.auxPrefix.map (· ++ [encBool t])) s

/-- `AUX_TOGGLE` (R210). -/
def execAuxToggle (t : Bool) (s : State) : Host.Outcome State Fault Refusal :=
  .next (auxToggle Config.params t s)

end Sys2Proof.Machine
end

