-- ==== Sys2Proof/Machine/Direct.lean ====
section
/-! DEFINITION. The direct-mode commands and the direct-enable sequencer (42_command_encoder.md R204 to R207, R220 to R226). -/

namespace Sys2Proof.Machine

open Sys2Proof.Config

/-- The payload of step 1, `74 00 ++ P_DIRECT_ARGS1` (R205). -/
def directPayload1 (P : Params) : List Byte := [0x74#8, 0x00#8] ++ P.directArgs1

/-- The payload of step 2, `74 02 b b` (R206). -/
def directPayload2 (f1 f2 : Bool) : List Byte := [0x74#8, 0x02#8, encBool f1, encBool f2]

/-- The payload of step 3, `74 0B ++ P_DIRECT_ARGS3` (R207). -/
def directPayload3 (P : Params) : List Byte := [0x74#8, 0x0B#8] ++ P.directArgs3

/-- `DIRECT_LISTEN` under given parameters (R205). -/
def directListen (P : Params) (s : State) : State := serveCommand [] (directPayload1 P) s

/-- `DIRECT_LISTEN` (R205). -/
def execDirectListen (s : State) : Host.Outcome State Fault Refusal := .next (directListen Config.params s)

/-- `DIRECT_POWER` (R206). -/
def execDirectPower (f1 f2 : Bool) (s : State) : Host.Outcome State Fault Refusal :=
  .next (serveCommand [] (directPayload2 f1 f2) s)

/-- `DIRECT_UNMUTE` under given parameters (R207). -/
def directUnmute (P : Params) (s : State) : State := serveCommand [] (directPayload3 P) s

/-- `DIRECT_UNMUTE` (R207). -/
def execDirectUnmute (s : State) : Host.Outcome State Fault Refusal := .next (directUnmute Config.params s)

/-- The sequence returns to IDLE and its pending request gets its one reply (R224, R225, R273, R274). -/
def endSequence (st : Status) (info : Info) (s : State) : State :=
  { s with
    seqStep := .idle
    seqReq := none
    replies := s.replies ++ s.seqReq.toList.map (fun r => ⟨r, st, info⟩) }

/-- The accepting step of `DIRECT_ENABLE` (R220) under given parameters. A request presented while a sequence runs
is held: it stays at the port, with no reply (R221). When step 1 cannot be sent, the reply is all that is written
(R13, R243, R247; log 13). -/
def directEnable (P : Params) (f1 f2 : Bool) (s : State) : State :=
  match s.seqStep with
  | .idle =>
    match sendFrame (directPayload1 P) s with
    | (.ok, t) => { accept t with seqF1 := f1, seqF2 := f2, seqStep := .wait1, seqReq := some s.serving }
    | (_, t) => raiseReply .transportUnavailable (.seqStep 1) t
  | _ => s

/-- `DIRECT_ENABLE` (R220). -/
def execDirectEnable (f1 f2 : Bool) (s : State) : Host.Outcome State Fault Refusal :=
  .next (directEnable Config.params f1 f2 s)

/-- One middle step of the sequence (R222, R223): the frame of step `k`, then the next wait; a failed send ends the
sequence with the step's number (R225). -/
def sequenceStep (k : Nat) (p : List Byte) (wait : SeqStep) (s : State) : State :=
  match sendFrame p s with
  | (.ok, t) => { t with seqStep := wait }
  | (_, t) => endSequence .transportUnavailable (.seqStep k) t

/-- `DELAY_DONE` (R222, R223, R224); not enabled while IDLE, and then nothing happens (log 1). -/
def delayDone (P : Params) (s : State) : State :=
  match s.seqStep with
  | .idle => s
  | .wait1 => sequenceStep 2 (directPayload2 s.seqF1 s.seqF2) .wait2 s
  | .wait2 => sequenceStep 3 (directPayload3 P) .wait3 s
  | .wait3 =>
    endSequence .ok (.payloads (directPayload1 P) (directPayload2 s.seqF1 s.seqF2) (directPayload3 P)) s

end Sys2Proof.Machine
end

