-- ==== Sys2Proof/Machine/Framer.lean ====
section
/-! DEFINITION. `SEND_RAW`, the framer's own request (40_framer.md R110). -/

namespace Sys2Proof.Machine

/-- `SEND_RAW` (R110): refused over 65535 bytes, else any bytes are framed and sent. -/
def execSendRaw (p : List Byte) (s : State) : Host.Outcome State Fault Refusal :=
  .next (if p.length > 65535 then raiseReply .invalidArgument (.operand 0) s else transmit p s)

end Sys2Proof.Machine
end

