-- ==== Sys2Proof/Machine/Session.lean ====
section
/-! DEFINITION. `OPEN` and `CLOSE`: the accepting and the completion steps (70_reset_and_hazards.md R273, R274). -/

namespace Sys2Proof.Machine

/-- A running sequence is ended and `CANCELLED` goes to its request (R225, R273). -/
def cancelSequence (s : State) : State :=
  match s.seqStep with
  | .idle => s
  | _ => endSequence .cancelled .none s

/-- The accepting step of `OPEN` and `CLOSE` (R273): `CANCEL` is set, a running sequence is ended, and the request is
held until the deframer is STOPPED. DEDUCED (log 12): while one is held, another one stays at the port, since every
`OPEN` and every `CLOSE` completes (R275) and the completion of an `OPEN` takes back the `CANCEL` of a second one. -/
def acceptJoin (kind : JoinKind) (s : State) : State :=
  match s.join with
  | some _ => s
  | none =>
    let t := cancelSequence { accept s with cancel := true }
    { t with join := some ⟨s.serving, kind⟩ }

/-- `OPEN`, the accepting step (R274). -/
def execOpenSession (s : State) : Host.Outcome State Fault Refusal := .next (acceptJoin .opening s)

/-- `CLOSE`, the accepting step (R273). -/
def execCloseSession (s : State) : Host.Outcome State Fault Refusal := .next (acceptJoin .closing s)

/-- The held request leaves the request agent with its reply. -/
def releaseJoin (r : Nat) (s : State) : State := replyTo r .ok .none { s with join := none }

/-- The completion step of `OPEN` (R274): the deframer starts on an empty stream. -/
def completeOpen (r : Nat) (s : State) : State :=
  releaseJoin r { s with rxq := [], hdrBuf := [], bodyBuf := [], cancel := false, rxMode := .hdr }

/-- The completion step of `CLOSE` (R273). -/
def completeClose (r : Nat) (s : State) : State := releaseJoin r s

/-- The completion step of the held request, enabled when `RX_MODE = STOPPED` (R273, R274); otherwise it stays held. -/
def completeJoin (s : State) : State :=
  match s.join, s.rxMode with
  | some ⟨r, .opening⟩, .stopped => completeOpen r s
  | some ⟨r, .closing⟩, .stopped => completeClose r s
  | _, _ => s

end Sys2Proof.Machine
end

