-- ==== Sys2Proof/Machine/Dispatch.lean ====
section
/-! DEFINITION. The accepting step of every host operation: one arm per constructor of Instr. -/

namespace Sys2Proof.Machine

def exec (i : Instr) (s : State) : Host.Outcome State Fault Refusal :=
  match i with
  | .powerUp a b c l => Sys2Proof.Machine.execPowerUp a b c l s
  | .powerDown p => Sys2Proof.Machine.execPowerDown p s
  | .setLineLevel g => Sys2Proof.Machine.execSetLineLevel g s
  | .changeChannel sid ch d pt => Sys2Proof.Machine.execChangeChannel sid ch d pt s
  | .cancelChannel ch d => Sys2Proof.Machine.execCancelChannel ch d s
  | .mute m => Sys2Proof.Machine.execMute m s
  | .extInfo ch => Sys2Proof.Machine.execExtInfo ch s
  | .channelInfo sid ch pt => Sys2Proof.Machine.execChannelInfo sid ch pt s
  | .radioId => Sys2Proof.Machine.execRadioId s
  | .signalMonitor t => Sys2Proof.Machine.execSignalMonitor t s
  | .signalInfo => Sys2Proof.Machine.execSignalInfo s
  | .clockMonitor t => Sys2Proof.Machine.execClockMonitor t s
  | .dataSelect sid f1 f2 => Sys2Proof.Machine.execDataSelect sid f1 f2 s
  | .dataPing => Sys2Proof.Machine.execDataPing s
  | .channelMonitor ch sv ty inf ext ov => Sys2Proof.Machine.execChannelMonitor ch sv ty inf ext ov s
  | .diagMonitor t => Sys2Proof.Machine.execDiagMonitor t s
  | .fwVersion => Sys2Proof.Machine.execFwVersion s
  | .directListen => Sys2Proof.Machine.execDirectListen s
  | .directPower f1 f2 => Sys2Proof.Machine.execDirectPower f1 f2 s
  | .directUnmute => Sys2Proof.Machine.execDirectUnmute s
  | .dataFwVersion => Sys2Proof.Machine.execDataFwVersion s
  | .auxToggle t => Sys2Proof.Machine.execAuxToggle t s
  | .sendRaw p => Sys2Proof.Machine.execSendRaw p s
  | .crcInit => Sys2Proof.Machine.execCrcInit s
  | .crcByte b => Sys2Proof.Machine.execCrcByte b s
  | .crcRead => Sys2Proof.Machine.execCrcRead s
  | .crcCompute data => Sys2Proof.Machine.execCrcCompute data s
  | .crcValidate data ck => Sys2Proof.Machine.execCrcValidate data ck s
  | .directEnable f1 f2 => Sys2Proof.Machine.execDirectEnable f1 f2 s
  | .openSession => Sys2Proof.Machine.execOpenSession s
  | .closeSession => Sys2Proof.Machine.execCloseSession s

end Sys2Proof.Machine
end

