-- ==== Sys2Proof/Machine/Agents.lean ====
section
/-! DEFINITION. One turn of an agent or of the environment (60_exceptions.md R258). -/

namespace Sys2Proof.Machine

/-- The request agent serves the request `r` presents: it runs the operation for that requester (R22). With nothing
presented it holds. -/
def serveTurn (r : Nat) (s : State) : Host.Outcome State Fault Refusal :=
  match presented r s with
  | none => .next s
  | some q => exec q.op { s with serving := r }

/-- One turn. A turn whose step is not enabled changes nothing: the agent holds (00_scope.md R14; log 1). -/
def runTurn (t : Turn) (s : State) : Host.Outcome State Fault Refusal :=
  match t with
  | .present r op => .next (presentRequest r op s)
  | .serve r => serveTurn r s
  | .complete => .next (completeJoin s)
  | .deframer => .next (deframerStep Config.params s)
  | .rxByte b => .next (rxPush b s)
  | .rxTimeout => .next (rxTimeout Config.params s)
  | .delayDone => .next (delayDone Config.params s)
  | .setLink up => .next { s with link := up }
  | .setDataMode active => .next { s with dataModeActive := active }
  | .takeTx => .next { s with txq := s.txq.tail }
  | .takeEv => .next { s with evq := s.evq.tail }

/-- One step of the block: the next turn of the agenda; with no turn left nothing happens. -/
def stepAgenda (s : State) : Host.Outcome State Fault Refusal :=
  match s.agenda with
  | [] => .next s
  | t :: rest => runTurn t { s with agenda := rest }

/-- `i` presented by a requester with nothing outstanding, and the next turn given to the request agent for it (log 10). -/
def presentNext (i : Instr) (s : State) : State :=
  { s with
    reqPort := s.reqPort ++ [⟨freshRequester s, i⟩]
    agenda := .serve (freshRequester s) :: s.agenda }

end Sys2Proof.Machine
end

