-- ==== Sys2Proof/Machine/Step.lean ====
section
/-! DEFINITION. The step of the machine, and the presentation of a table word's instruction. -/

namespace Sys2Proof.Machine

/-- One step: the next turn of the agenda (log 1). -/
def step (s : State) : Host.Outcome State Fault Refusal := stepAgenda s

/-- `s` with the table word's instruction presented, so that the next step serves it (log 10). A word the decoder
refuses presents nothing. -/
def State.withFetchWord (s : State) (nbits w : Nat) : State :=
  match Sys2Proof.decodeTableWord nbits w with
  | none => s
  | some i => presentNext i s

end Sys2Proof.Machine
end

