-- ==== Sys2Proof/Machine/DataFrame.lean ====
section
/-! DEFINITION. The data frame of a 0xEA payload as the validator's caller sees it, and the response codes (30_encoding.md R82, R85). -/

namespace Sys2Proof.Machine

open Sys2Proof.Config

/-- A data frame (R85). Its extraction from a payload is surrounding software (00_scope.md R7; log 19). -/
structure DataFrame where
  serviceId : Byte
  frameIndex : Byte
  declaredLength : Byte
  checksum : Word16
  data : List Byte
  deriving DecidableEq, Repr

/-- The invariant of R85: `checksum == crc16_genibus(data)`. -/
def validFrame (f : DataFrame) : Bool := f.checksum == crc16Genibus f.data

/-- The request that has a data frame checked (R160): the checksum goes in as a value. -/
def validateRequest (f : DataFrame) : Instr := .crcValidate f.data (Int.ofNat f.checksum.toNat)

/-- The checksum field as a value, from its two bytes in wire order, under `P_CKSUM_ORDER` (R53, R160). -/
def checksumField (P : Params) (b0 b1 : Byte) : Word16 :=
  match P.cksumOrder with
  | .big => be16Val b0 b1
  | .little => be16Val b1 b0

/-- The meanings the source gives to response codes (R82). No rule of the block reads them (R83). -/
inductive ResponseKind where
  | startup
  | powerOff
  | tuneResult
  | muteState
  | extendedInfo
  | channelInfo
  | radioIdentity
  | signalInfo
  | dataModuleReply
  | channelMonitorAck
  | fieldUpdate
  | clock
  | firmwareInfo
  | bulkData
  | diagnostics
  | idleFrame
  | genericAlert
  deriving DecidableEq, Repr

/-- The table of R82; the list is not exhaustive, and an unknown code is no error (R248). -/
def responseKind (code : Byte) : Option ResponseKind :=
  match code.toNat with
  | 0x80 => some .startup
  | 0x81 => some .powerOff
  | 0x90 => some .tuneResult
  | 0x91 => some .tuneResult
  | 0x93 => some .muteState
  | 0xA2 => some .extendedInfo
  | 0xA5 => some .channelInfo
  | 0xB1 => some .radioIdentity
  | 0xC1 => some .signalInfo
  | 0xC3 => some .signalInfo
  | 0xCA => some .dataModuleReply
  | 0xD0 => some .channelMonitorAck
  | 0xCF => some .channelMonitorAck
  | 0xD1 => some .fieldUpdate
  | 0xD2 => some .fieldUpdate
  | 0xD3 => some .fieldUpdate
  | 0xD4 => some .fieldUpdate
  | 0xD5 => some .fieldUpdate
  | 0xD6 => some .fieldUpdate
  | 0xDF => some .clock
  | 0xE3 => some .firmwareInfo
  | 0xEA => some .bulkData
  | 0xF1 => some .diagnostics
  | 0xF2 => some .idleFrame
  | 0xFF => some .genericAlert
  | _ => none

end Sys2Proof.Machine
end

