-- ==== Sys2Proof/Machine/Flags.lean ====
section
/-! DEFINITION. The block has no flags (10_state.md R38): outcomes are statuses. Their numeric codes, and those of the mode registers. -/

namespace Sys2Proof.Machine

/-- The numeric status codes (60_exceptions.md R240). -/
def statusCode : Status → Byte
  | .ok => 0x00#8
  | .cancelled => 0x01#8
  | .headerMismatch => 0x02#8
  | .truncatedBody => 0x03#8
  | .transportUnavailable => 0x04#8
  | .checksumMismatch => 0x05#8
  | .invalidArgument => 0x06#8
  | .emptyFrame => 0x07#8
  | .refused => 0x08#8
  | .payloadLengthMismatch => 0x10#8
  | .unknownResponseCode => 0x11#8

/-- The status of a code; `none` for the reserved codes `09` to `0F` and the rest (R240). -/
def statusOfCode (c : Byte) : Option Status :=
  match c.toNat with
  | 0x00 => some .ok
  | 0x01 => some .cancelled
  | 0x02 => some .headerMismatch
  | 0x03 => some .truncatedBody
  | 0x04 => some .transportUnavailable
  | 0x05 => some .checksumMismatch
  | 0x06 => some .invalidArgument
  | 0x07 => some .emptyFrame
  | 0x08 => some .refused
  | 0x10 => some .payloadLengthMismatch
  | 0x11 => some .unknownResponseCode
  | _ => none

/-- The statuses the block raises: all but the two reserved for the surrounding dispatcher (R240, R241). -/
def raisedByBlock : Status → Bool
  | .payloadLengthMismatch => false
  | .unknownResponseCode => false
  | _ => true

/-- The 2-bit code of `RX_MODE` (10_state.md R23). -/
def rxModeCode : RxMode → BitVec 2
  | .stopped => 0#2
  | .hdr => 1#2
  | .body => 2#2

/-- The 2-bit code of `SEQ_STEP` (R31). -/
def seqStepCode : SeqStep → BitVec 2
  | .idle => 0#2
  | .wait1 => 1#2
  | .wait2 => 2#2
  | .wait3 => 3#2

/-- `HDR_CNT`, the 3-bit count of `HDR_BUF` (R24). -/
def hdrCnt (s : State) : BitVec 3 := BitVec.ofNat 3 s.hdrBuf.length

end Sys2Proof.Machine
end

