-- ==== Sys2Proof/Safety.lean ====
section
/-! DEFINITION. The terms the statements use: the invariant of the state, what a reply and a sent frame leave, the kinds of requests, runs. -/

namespace Sys2Proof.Safety

open Sys2Proof.Machine

/-- A legal state: `HDR_BUF` holds at most 4 bytes between steps and only in HDR (10_state.md R24), `BODY_BUF` holds
fewer than `FR_LEN + 1` bytes and only in BODY (R27), a `DIRECT_ENABLE` is pending exactly while the sequence runs
(42_command_encoder.md R220, R224), `CANCEL` is set while an `OPEN` or `CLOSE` is held (70_reset_and_hazards.md R273,
R274; log 12), and no requester has two requests outstanding (R22; log 11). -/
def Legal (s : State) : Prop :=
  s.hdrBuf.length ≤ 4 ∧ (s.rxMode ≠ .hdr → s.hdrBuf = []) ∧
  (s.rxMode = .body → s.bodyBuf.length ≤ s.frLen.toNat) ∧ (s.rxMode ≠ .body → s.bodyBuf = []) ∧
  (s.seqStep = .idle ↔ s.seqReq = none) ∧
  (s.join ≠ none → s.cancel = true) ∧
  (outstanding s).Nodup

/-- The wire frame of a payload, byte by byte (30_encoding.md R70): marker, LEN high, LEN low, payload, trailer. -/
def wireFrame (p : List Byte) : List Byte :=
  0x5A#8 :: 0xA5#8 :: BitVec.ofNat 8 (p.length / 256) :: BitVec.ofNat 8 p.length :: (p ++ [0xED#8, 0xED#8])

/-- `s` after the served request left the port with this reply, and nothing else. -/
def afterReply (s : State) (st : Status) (info : Info) : State :=
  { s with
    reqPort := s.reqPort.eraseP (fun q => q.requester == s.serving)
    replies := s.replies ++ [⟨s.serving, st, info⟩] }

/-- `s` after the payload `p` was framed and sent for the served request: the frame on `TXQ`, one `EV_CMD_SENT`, the
reply `OK` with the payload, and nothing else (40_framer.md R111). -/
def afterSent (s : State) (p : List Byte) : State :=
  { afterReply s .ok (.payload p) with
    txq := s.txq ++ wireFrame p
    evq := s.evq ++ [.cmdSent p] }

/-- The index of the first listed operand outside `0..=255` (R181). -/
def firstOutOfU8 (ops : List (Nat × Int)) : Option Nat :=
  (ops.find? (fun o => decide (o.2 < 0 ∨ 255 < o.2))).map (·.1)

/-- The rule of a command with these `u8` operands and this payload, in every state (R180, R181, R111): with every
operand in range it sends the payload while `LINK = 1` and is answered `TRANSPORT_UNAVAILABLE` while `LINK = 0`; with
an operand out of range it is answered `INVALID_ARGUMENT` with the first such operand; nothing else changes. -/
def CommandRule (i : Instr) (u8s : List (Nat × Int)) (payload : State → List Byte) : Prop :=
  ∀ s : State,
    (firstOutOfU8 u8s = none → s.link = true → exec i s = .next (afterSent s (payload s))) ∧
    (firstOutOfU8 u8s = none → s.link = false →
      exec i s = .next (afterReply s .transportUnavailable .none)) ∧
    (∀ k, firstOutOfU8 u8s = some k → exec i s = .next (afterReply s .invalidArgument (.operand k)))

/-- The command requests of R78; the others are the host operations of 00_scope.md R19. -/
def isCommand : Instr → Bool
  | .powerUp _ _ _ _ | .powerDown _ | .setLineLevel _ | .changeChannel _ _ _ _ | .cancelChannel _ _ | .mute _
  | .extInfo _ | .channelInfo _ _ _ | .radioId | .signalMonitor _ | .signalInfo | .clockMonitor _
  | .dataSelect _ _ _ | .dataPing | .channelMonitor _ _ _ _ _ _ | .diagMonitor _ | .fwVersion
  | .directListen | .directPower _ _ | .directUnmute | .dataFwVersion | .auxToggle _ => true
  | .sendRaw _ | .crcInit | .crcByte _ | .crcRead | .crcCompute _ | .crcValidate _ _ | .directEnable _ _
  | .openSession | .closeSession => false

/-- The commands with a row of their own in R78 whose operands can be read back: all but `SET_LINE_LEVEL`, whose gain
byte stands for any gain, and the two whose payload is a parameter. -/
def hasFixedRow : Instr → Bool
  | .powerUp _ _ _ _ | .powerDown _ | .changeChannel _ _ _ _ | .cancelChannel _ _ | .mute _
  | .extInfo _ | .channelInfo _ _ _ | .radioId | .signalMonitor _ | .signalInfo | .clockMonitor _
  | .dataSelect _ _ _ | .dataPing | .channelMonitor _ _ _ _ _ _ | .diagMonitor _ | .fwVersion
  | .directListen | .directPower _ _ | .directUnmute => true
  | .setLineLevel _ | .dataFwVersion | .auxToggle _ | .sendRaw _ | .crcInit | .crcByte _ | .crcRead | .crcCompute _
  | .crcValidate _ _ | .directEnable _ _ | .openSession | .closeSession => false

/-- `n` steps of the machine. -/
def runSteps (n : Nat) (s : State) : Host.Outcome State Fault Refusal := Host.Core.run Sys2Proof.core n s

/-- Requests served one after another for the same requester. -/
def execAll : List Instr → State → Host.Outcome State Fault Refusal
  | [], s => .next s
  | i :: rest, s =>
    match exec i s with
    | .next t => execAll rest t
    | .fault r => .fault r
    | .refused r => .refused r

/-- A status event carries only statuses the block raises (60_exceptions.md R240). -/
def eventOfBlock : Event → Bool
  | .status st _ => raisedByBlock st
  | _ => true

/-- Every event and every reply in the state carries only statuses the block raises. -/
def OnlyBlockStatuses (s : State) : Prop :=
  (∀ e ∈ s.evq, eventOfBlock e = true) ∧ (∀ r ∈ s.replies, raisedByBlock r.status = true)

/-- How many of its steps and of its read timeouts a cancelled deframer can take before it is STOPPED, at most (R275:
"at most 5 header bytes, or `FR_LEN + 1` body bytes, or one `RX_TIMEOUT`", then `DF_CANCEL`). -/
def attemptLeft (s : State) : Nat :=
  match s.rxMode with
  | .stopped => 0
  | .hdr => if s.hdrBuf = [] then 1 else 65537 + (5 - s.hdrBuf.length)
  | .body => s.frLen.toNat + 2 - s.bodyBuf.length

/-- One of the deframer's four steps is enabled (40_framer.md R113). -/
def deframerEnabled (s : State) : Bool :=
  takeHdrEnabled s || takeBodyEnabled s || dfCancelEnabled s || linkDownEnabled s

/-- How many times a schedule gives the deframer a turn and then a read timeout; other turns may stand between. -/
def rounds : List Turn → Nat
  | .deframer :: .rxTimeout :: rest => rounds rest + 1
  | _ :: rest => rounds rest
  | [] => 0

end Sys2Proof.Safety
end

