-- ==== Sys2Proof/Certificates/Slice0/Obligations.lean ====
section
/-! DEFINITION. The statements about the block for the provers. -/

open Sys2Proof Sys2Proof.Config Sys2Proof.Machine Sys2Proof.Safety

/-! ## Reset, the invariant, the step -/

/-- R41, for the fields to which it gives a value. R41 names `LINK = 0` as the environment's; `FR_LEN`, `FR_CODE` and
`DATA_MODE_ACTIVE` have no value in R41 and none is stated. -/
def Obligations.ResetLeavesTheBlockIdle : Prop :=
  State.reset.rxMode = .stopped ∧ State.reset.hdrBuf = [] ∧ State.reset.bodyBuf = [] ∧
  State.reset.cancel = false ∧ State.reset.link = false ∧ State.reset.crcAcc = 0xFFFF#16 ∧
  State.reset.seqStep = .idle ∧ State.reset.seqF1 = false ∧ State.reset.seqF2 = false ∧
  State.reset.rxq = [] ∧ State.reset.txq = [] ∧ State.reset.evq = [] ∧
  State.reset.reqPort = [] ∧ State.reset.join = none ∧ State.reset.seqReq = none

/-- Reset does not drive the inputs (70_reset_and_hazards.md section 1): whatever they are, the state after power-on
meets the invariant. That `State.reset` is the case of both 0 is the model's choice for `DATA_MODE_ACTIVE` (log 4). -/
def Obligations.PowerOnMeetsTheInvariant : Prop :=
  ∀ link dataMode : Bool, Legal (State.powerOn link dataMode) ∧
    (State.powerOn link dataMode).link = link ∧ (State.powerOn link dataMode).dataModeActive = dataMode

/-- Every step keeps the invariant, from every state that meets it, whatever the agenda. The clause on requesters
rests on log 11; the clause on `CANCEL` while an `OPEN` or `CLOSE` is held rests on log 12. -/
def Obligations.StepKeepsTheInvariant : Prop :=
  ∀ s t : State, Legal s → step s = .next t → Legal t

/-- No status stops the block (60_exceptions.md section 3): every step of every state answers a next state. -/
def Obligations.EveryStepAnswersNext : Prop :=
  ∀ s : State, ∃ t : State, step s = .next t

/-- A step at which the agenda gives the request agent a presented request runs exactly that request's operation, for
its requester (10_state.md section 2; the agenda is the model's, log 1). -/
def Obligations.StepServesThePresentedRequest : Prop :=
  ∀ (s : State) (r : Nat) (i : Instr) (rest : List Turn),
    s.agenda = .serve r :: rest → presented r s = some ⟨r, i⟩ →
    step s = exec i { s with agenda := rest, serving := r }

/-- What a step does for every other turn, in the names of the operations the other statements speak of; with no turn,
and with nothing presented, nothing happens (the agenda is the model's, log 1). -/
def Obligations.StepTakesTheNextTurn : Prop :=
  ∀ (s : State) (rest : List Turn),
    step { s with agenda := [] } = .next { s with agenda := [] } ∧
    (∀ r, presented r s = none → step { s with agenda := .serve r :: rest } = .next { s with agenda := rest }) ∧
    (∀ r i, step { s with agenda := .present r i :: rest } = .next (presentRequest r i { s with agenda := rest })) ∧
    step { s with agenda := .complete :: rest } = .next (completeJoin { s with agenda := rest }) ∧
    step { s with agenda := .deframer :: rest } = .next (deframerStep Config.params { s with agenda := rest }) ∧
    step { s with agenda := .rxTimeout :: rest } = .next (rxTimeout Config.params { s with agenda := rest }) ∧
    step { s with agenda := .delayDone :: rest } = .next (delayDone Config.params { s with agenda := rest }) ∧
    (∀ b, step { s with agenda := .rxByte b :: rest } = .next { s with agenda := rest, rxq := s.rxq ++ [b] }) ∧
    (∀ up, step { s with agenda := .setLink up :: rest } = .next { s with agenda := rest, link := up }) ∧
    (∀ on, step { s with agenda := .setDataMode on :: rest } = .next { s with agenda := rest, dataModeActive := on }) ∧
    step { s with agenda := .takeTx :: rest } = .next { s with agenda := rest, txq := s.txq.tail } ∧
    step { s with agenda := .takeEv :: rest } = .next { s with agenda := rest, evq := s.evq.tail }

/-- A request that is presented stays at the port until it is accepted, and a requester with a request outstanding
presents no second one (10_state.md section 2; log 11). -/
def Obligations.PresentingAddsOneRequest : Prop :=
  ∀ (s : State) (r : Nat) (i : Instr),
    (r ∉ outstanding s → presentRequest r i s = { s with reqPort := s.reqPort ++ [⟨r, i⟩] } ∧
      presented r (presentRequest r i s) = some ⟨r, i⟩) ∧
    (r ∈ outstanding s → presentRequest r i s = s)

/-! ## Encoding -/

/-- The decoder reads words written out from the rows of R78: one per family. It does so for every value of the
parameters: that the row wins where a parameter's payload collides with it is the model's choice (log 20). -/
def Obligations.DecoderReadsTheSpecsWords : Prop :=
  ∀ (P : Params) (dm : Bool),
    decodePayload P dm [0x10#8, 0x02#8, 0x01#8, 0x00#8, 0x00#8, 0x01#8] = .ok (.changeChannel false 1 false 0) ∧
    decodePayload P dm [0x25#8, 0x07#8, 0x2A#8, 0x00#8] = .ok (.channelInfo true 42 0) ∧
    decodePayload P dm [0x4A#8, 0x10#8, 0xF0#8, 0x01#8, 0x00#8] = .ok (.dataSelect 240 true false) ∧
    decodePayload P dm [0x60#8, 0x01#8] = .ok (.diagMonitor true) ∧
    decodePayload P dm [0x70#8, 0x05#8] = .ok .fwVersion ∧
    decodePayload P dm [0x74#8, 0x02#8, 0x01#8, 0x00#8] = .ok (.directPower true false)

/-- Decode and encode agree. For every command with a fixed row, every operand in range and every value of the
parameters, the decoder gives the command back from its payload; that it does so where a parameter's payload collides
with the row is the model's choice (log 20), since R79 leaves that reading open. From the payload of `SET_LINE_LEVEL`
it gives `SET_LINE_LEVEL`, whose gain is a free value (log 7). Where a parameter is given and its payload is that of no
row, the decoder gives `DATA_FW_VERSION` and `AUX_TOGGLE` back; that `DATA_FW_VERSION` wins where the two coincide is the
model's choice (log 20). -/
def Obligations.DecodeOfEncodeIsTheCommand : Prop :=
  ∀ (P : Params) (dm : Bool),
    (∀ (i : Instr) (p : List Byte), hasFixedRow i = true → i.wf = true → encode P dm i = some p →
      decodePayload P dm p = .ok i) ∧
    (∀ (gain : Int) (p : List Byte), encode P dm (.setLineLevel gain) = some p →
      ∃ g, decodePayload P dm p = .ok (.setLineLevel g)) ∧
    (∀ p : List Byte,
      (∀ i : Instr, hasFixedRow i = true → i.wf = true → encode P dm i ≠ some p) → (∀ e : Byte, p ≠ [0x0B#8, e]) →
      (P.dataFwPayload = some p → decodePayload P dm p = .ok .dataFwVersion) ∧
      (∀ (on : Bool) (q : List Byte), P.auxPrefix = some q → p = q ++ [if on then 0x01#8 else 0x00#8] →
        P.dataFwPayload ≠ some p → decodePayload P dm p = .ok (.auxToggle on)))

/-- The other direction: where the decoder gives a command other than `SET_LINE_LEVEL`, the payload is that command's;
where it gives `SET_LINE_LEVEL`, whose gain is a free value (log 7), the payload is `0B` and one byte. R79 speaks only of
payloads the encoder produced: that the decoder gives no command for any other payload is the model's choice (log 8). -/
def Obligations.DecodedPayloadIsTheCommandsOwn : Prop :=
  ∀ (P : Params) (dm : Bool) (p : List Byte) (i : Instr),
    decodePayload P dm p = .ok i →
      encode P dm i = some p ∨ ((∃ g, i = .setLineLevel g) ∧ ∃ e, p = [0x0B#8, e])

/-- The prefixes the catalog does not use (30_encoding.md section 4, rule R80) are refused by name by the lookup. -/
def Obligations.ReservedPrefixesAreRefused : Prop :=
  ∀ (P : Params) (dm : Bool) (op sub : Byte) (args : List Byte),
    (op.toNat ∉ [0x00, 0x01, 0x0B, 0x10, 0x11, 0x13, 0x22, 0x25, 0x31, 0x42, 0x43, 0x4A, 0x4E, 0x4F, 0x50, 0x60, 0x70, 0x74] →
      lookup P dm (op :: args) = .error (.reservedOpcode op)) ∧
    (sub.toNat ∉ [0x10, 0x43] → lookup P dm (0x4A#8 :: sub :: args) = .error (.reservedSubcode 0x4A#8 sub)) ∧
    (sub.toNat ∉ [0x00, 0x02, 0x0B] → lookup P dm (0x74#8 :: sub :: args) = .error (.reservedSubcode 0x74#8 sub)) ∧
    (sub.toNat ≠ 0x05 → lookup P dm (0x70#8 :: sub :: args) = .error (.reservedSubcode 0x70#8 sub))

/-- R112 and R70: the frame of a payload that fits LEN, its length, and its payload read back verbatim (R73: no
stuffing). -/
def Obligations.FrameCarriesThePayloadVerbatim : Prop :=
  ∀ p : List Byte, p.length ≤ 65535 →
    frameEncode p = wireFrame p ∧ (frameEncode p).length = p.length + 6 ∧
    ((frameEncode p).drop 4).take p.length = p ∧
    be16Val ((frameEncode p).getD 2 0) ((frameEncode p).getD 3 0) = BitVec.ofNat 16 p.length

/-! ## Command requests -/

/-- R183, R184. -/
def Obligations.PowerCommandsFollowTheirRules : Prop :=
  (∀ (a b c : Int) (loss : Bool), CommandRule (.powerUp a b c loss) [(0, a), (1, b), (2, c)]
    (fun _ => [0x00#8, BitVec.ofInt 8 a, BitVec.ofInt 8 b, BitVec.ofInt 8 c, if loss then 0x01#8 else 0x00#8])) ∧
  (∀ save : Bool, CommandRule (.powerDown save) [] (fun _ => [0x01#8, if save then 0x01#8 else 0x00#8]))

/-- R185, for every value of the parameters; and the request uses the run's. An out-of-range gain is clamped. -/
def Obligations.SetLineLevelClampsAndSends : Prop :=
  (∀ gain : Int, CommandRule (.setLineLevel gain) []
    (fun _ => [0x0B#8, Config.params.gainEnc (min (max gain Config.params.gainMin) Config.params.gainMax)])) ∧
  (∀ (P : Params) (gain : Int), P.gainMin ≤ clampGain P gain ∧ clampGain P gain ≤ P.gainMax ∧
    (P.gainMin ≤ gain → gain ≤ P.gainMax → clampGain P gain = gain) ∧
    (gain ≤ P.gainMin → clampGain P gain = P.gainMin) ∧ (P.gainMax ≤ gain → clampGain P gain = P.gainMax))

/-- R186, R188, R190, R191. -/
def Obligations.ChannelCommandsFollowTheirRules : Prop :=
  (∀ (sid : Bool) (ch : Int) (d : Bool) (pt : Int), CommandRule (.changeChannel sid ch d pt) [(1, ch), (3, pt)]
    (fun _ => [0x10#8, if sid then 0x01#8 else 0x02#8, BitVec.ofInt 8 ch, if d then 0x01#8 else 0x00#8,
      BitVec.ofInt 8 pt, if d then 0x02#8 else 0x01#8])) ∧
  (∀ (ch : Int) (d : Bool), CommandRule (.cancelChannel ch d) [(0, ch)]
    (fun _ => [0x11#8, BitVec.ofInt 8 ch, if d then 0x01#8 else 0x00#8])) ∧
  (∀ ch : Int, CommandRule (.extInfo ch) [(0, ch)] (fun _ => [0x22#8, BitVec.ofInt 8 ch])) ∧
  (∀ (sid : Bool) (ch pt : Int), CommandRule (.channelInfo sid ch pt) [(1, ch), (2, pt)]
    (fun _ => [0x25#8, if sid then 0x07#8 else 0x08#8, BitVec.ofInt 8 ch, BitVec.ofInt 8 pt]))

/-- R189, R194, R196, R202. -/
def Obligations.ToggleCommandsFollowTheirRules : Prop :=
  ∀ on : Bool,
    CommandRule (.mute on) [] (fun _ => [0x13#8, if on then 0x01#8 else 0x00#8]) ∧
    CommandRule (.signalMonitor on) [] (fun _ => [0x42#8, if on then 0x01#8 else 0x00#8]) ∧
    CommandRule (.clockMonitor on) [] (fun _ => [0x4E#8, if on then 0x01#8 else 0x00#8]) ∧
    CommandRule (.diagMonitor on) [] (fun _ => [0x60#8, if on then 0x01#8 else 0x00#8])

/-- R193, R195, R203. -/
def Obligations.QueryCommandsFollowTheirRules : Prop :=
  CommandRule .radioId [] (fun _ => [0x31#8]) ∧
  CommandRule .signalInfo [] (fun _ => [0x43#8]) ∧
  CommandRule .fwVersion [] (fun _ => [0x70#8, 0x05#8])

/-- R197, R198. -/
def Obligations.DataModeCommandsFollowTheirRules : Prop :=
  (∀ (sid : Int) (f1 f2 : Bool), CommandRule (.dataSelect sid f1 f2) [(0, sid)]
    (fun _ => [0x4A#8, 0x10#8, BitVec.ofInt 8 sid, if f1 then 0x01#8 else 0x00#8, if f2 then 0x01#8 else 0x00#8])) ∧
  CommandRule .dataPing [] (fun _ => [0x4A#8, 0x43#8])

/-- R200: the opcode is `P_CHMON_OP1` when `DATA_MODE_ACTIVE ^ override = 1` and the other one when it is 0, with the
value `DATA_MODE_ACTIVE` has in the step that accepts the request. -/
def Obligations.ChannelMonitorFollowsItsRule : Prop :=
  (∀ (ch : Int) (sv ty inf ext ov : Bool), CommandRule (.channelMonitor ch sv ty inf ext ov) [(0, ch)]
    (fun s => [chmonByte (chmonSelect Config.params (Bool.xor s.dataModeActive ov)), BitVec.ofInt 8 ch,
      if sv then 0x01#8 else 0x00#8, if ty then 0x01#8 else 0x00#8, if inf then 0x01#8 else 0x00#8,
      if ext then 0x01#8 else 0x00#8])) ∧
  (∀ P : Params,
    (P.chmonOp1 = .op50 → chmonByte (chmonSelect P true) = 0x50#8 ∧ chmonByte (chmonSelect P false) = 0x4F#8) ∧
    (P.chmonOp1 = .op4F → chmonByte (chmonSelect P true) = 0x4F#8 ∧ chmonByte (chmonSelect P false) = 0x50#8))

/-- R205, R206, R207. -/
def Obligations.DirectCommandsFollowTheirRules : Prop :=
  CommandRule .directListen [] (fun _ => [0x74#8, 0x00#8] ++ Config.params.directArgs1) ∧
  (∀ f1 f2 : Bool, CommandRule (.directPower f1 f2) []
    (fun _ => [0x74#8, 0x02#8, if f1 then 0x01#8 else 0x00#8, if f2 then 0x01#8 else 0x00#8])) ∧
  CommandRule .directUnmute [] (fun _ => [0x74#8, 0x0B#8] ++ Config.params.directArgs3)

/-- R208, R209, R210, for every value the parameters may have: NONE refuses before the link check and sends nothing, a
given value is sent while the link is up. -/
def Obligations.ParameterCommandsFollowTheirRules : Prop :=
  ∀ s : State,
    exec .dataFwVersion s = .next (match Config.params.dataFwPayload, s.link with
      | none, _ => afterReply s .refused (.command .dataFwVersion)
      | some p, true => afterSent s p
      | some _, false => afterReply s .transportUnavailable .none) ∧
    (∀ on : Bool, exec (.auxToggle on) s = .next (match Config.params.auxPrefix, s.link with
      | none, _ => afterReply s .refused (.command .auxToggle)
      | some p, true => afterSent s (p ++ [if on then 0x01#8 else 0x00#8])
      | some _, false => afterReply s .transportUnavailable .none)) ∧
    (∀ (P : Params) (on : Bool),
      (P.dataFwPayload = none → dataFwVersion P s = afterReply s .refused (.command .dataFwVersion)) ∧
      (∀ p, P.dataFwPayload = some p → s.link = true → dataFwVersion P s = afterSent s p) ∧
      (P.auxPrefix = none → auxToggle P on s = afterReply s .refused (.command .auxToggle)) ∧
      (∀ p, P.auxPrefix = some p → s.link = true →
        auxToggle P on s = afterSent s (p ++ [if on then 0x01#8 else 0x00#8])))

/-- R181 for every request with range-checked operands, the checksum unit's and `SEND_RAW` included: the first operand
out of range is reported, whatever the link, and nothing else happens; with none out of range, and for every gain,
no request is answered `INVALID_ARGUMENT`. -/
def Obligations.FirstFailingOperandIsReported : Prop :=
  ∀ (i : Instr) (s : State),
    (∀ k, i.firstFailing = some k → exec i s = .next (afterReply s .invalidArgument (.operand k))) ∧
    (∀ t, i.firstFailing = none → exec i s = .next t →
      ∀ r ∈ t.replies, r ∈ s.replies ∨ r.status ≠ .invalidArgument) ∧
    (∀ gain : Int, (Instr.setLineLevel gain).firstFailing = none)

/-- R182: whatever its operands, a command request writes nothing but `TXQ`, `EVQ` and its reply (the port it leaves
with it). -/
def Obligations.CommandsWriteOnlyTheQueues : Prop :=
  ∀ (i : Instr) (s t : State), isCommand i = true → exec i s = .next t →
    { t with txq := s.txq, evq := s.evq, replies := s.replies, reqPort := s.reqPort } = s

/-- R182: no request but `CHANNEL_MONITOR` reads `DATA_MODE_ACTIVE`. -/
def Obligations.DataModeIsReadByChannelMonitorOnly : Prop :=
  ∀ (i : Instr) (s t : State) (b : Bool),
    (∀ ch sv ty inf ext ov, i ≠ .channelMonitor ch sv ty inf ext ov) → exec i s = .next t →
    exec i { s with dataModeActive := b } = .next { t with dataModeActive := b }

/-- R182: what a command sends, reports and answers depends on its operands, on `LINK` and on `DATA_MODE_ACTIVE` alone:
from any two states that agree on those, for the same requester, it appends the same bytes, events and reply. -/
def Obligations.CommandsReadOnlyTheLinkAndTheDataMode : Prop :=
  ∀ (i : Instr) (s s' t t' : State), isCommand i = true →
    s.link = s'.link → s.dataModeActive = s'.dataModeActive → s.serving = s'.serving →
    exec i s = .next t → exec i s' = .next t' →
    ∃ (bytes : List Byte) (events : List Event) (reply : Reply),
      t.txq = s.txq ++ bytes ∧ t'.txq = s'.txq ++ bytes ∧ t.evq = s.evq ++ events ∧ t'.evq = s'.evq ++ events ∧
      t.replies = s.replies ++ [reply] ∧ t'.replies = s'.replies ++ [reply]

/-! ## The framer -/

/-- R110. -/
def Obligations.SendRawFollowsItsRule : Prop :=
  ∀ (p : List Byte) (s : State),
    (p.length ≤ 65535 → s.link = true → exec (.sendRaw p) s = .next (afterSent s p)) ∧
    (p.length ≤ 65535 → s.link = false → exec (.sendRaw p) s = .next (afterReply s .transportUnavailable .none)) ∧
    (65535 < p.length → exec (.sendRaw p) s = .next (afterReply s .invalidArgument (.operand 0)))

/-- R56 over every step: `TXQ` keeps its bytes in order; a step appends one whole frame, together with its
`EV_CMD_SENT`, and only in serving a request or for a running sequence; or the environment takes the head byte, or
nothing happens to `TXQ`. That a frame goes out only with the link up and with a payload that fits LEN is `SendFrame`'s
rule (40_framer.md section 1); for the payloads of the parameters the length rests on log 6. -/
def Obligations.TxqGrowsByWholeFrames : Prop :=
  ∀ s t : State, step s = .next t →
    t.txq = s.txq ∨ (t.txq = s.txq.tail ∧ s.agenda = .takeTx :: t.agenda) ∨
    ∃ p : List Byte, p.length ≤ 65535 ∧ s.link = true ∧ t.txq = s.txq ++ wireFrame p ∧ t.evq = s.evq ++ [.cmdSent p] ∧
      ((∃ r q, s.agenda = .serve r :: t.agenda ∧ presented r s = some q) ∨
        (s.agenda = .delayDone :: t.agenda ∧ s.seqStep ≠ .idle))

/-! ## The deframer -/

/-- The enabling conditions of the deframer's steps and of the read timeout exclude each other, but for the two pairs
that 60_exceptions.md section 2 names (a sentence the spec marks as derived). -/
def Obligations.DeframerStepsExcludeEachOther : Prop :=
  ∀ s : State,
    ¬(takeHdrEnabled s = true ∧ takeBodyEnabled s = true) ∧
    ¬(takeHdrEnabled s = true ∧ dfCancelEnabled s = true) ∧
    ¬(takeHdrEnabled s = true ∧ linkDownEnabled s = true) ∧
    ¬(takeBodyEnabled s = true ∧ dfCancelEnabled s = true) ∧
    ¬(takeBodyEnabled s = true ∧ linkDownEnabled s = true) ∧
    ¬(dfCancelEnabled s = true ∧ linkDownEnabled s = true) ∧
    ¬(takeHdrEnabled s = true ∧ rxTimeoutEnabled s = true) ∧
    ¬(takeBodyEnabled s = true ∧ rxTimeoutEnabled s = true)

/-- R114, R115, R116: in HDR the head byte of `RXQ` joins `HDR_BUF`, unless a set `CANCEL` meets an empty one. The byte
that makes five (`code`) is checked in the same step: a wrong marker discards the five bytes with `HEADER_MISMATCH` and
stays in HDR, a right one latches LEN and the code and goes to BODY. With no byte available none is taken. -/
def Obligations.HeaderBytesAreTakenAndChecked : Prop :=
  ∀ (P : Params) (s : State), s.rxMode = .hdr → (s.hdrBuf ≠ [] ∨ s.cancel = false) →
    (∀ b rest, s.link = true → s.rxq = b :: rest → s.hdrBuf.length < 4 →
      deframerStep P s = { s with rxq := rest, hdrBuf := s.hdrBuf ++ [b] }) ∧
    (∀ m0 m1 hi lo code rest, s.link = true → s.rxq = code :: rest → s.hdrBuf = [m0, m1, hi, lo] →
      (m0 ≠ 0x5A#8 ∨ m1 ≠ 0xA5#8) →
      deframerStep P s = { s with
        rxq := rest, hdrBuf := [], evq := s.evq ++ [.status .headerMismatch (.header [m0, m1, hi, lo, code])] }) ∧
    (∀ hi lo code rest, s.link = true → s.rxq = code :: rest → s.hdrBuf = [0x5A#8, 0xA5#8, hi, lo] →
      deframerStep P s = { s with
        rxq := rest, hdrBuf := [], bodyBuf := [], rxMode := .body, frLen := hi ++ lo, frCode := code }) ∧
    (s.rxq = [] ∨ s.link = false → s.hdrBuf ≠ [] → deframerStep P s = s) ∧
    (s.rxq = [] → s.link = true → deframerStep P s = s)

/-- R118, R117, R120: in BODY the head byte of `RXQ` joins `BODY_BUF`, whatever `CANCEL` is; the byte that completes
`FR_LEN + 1` delivers the code byte with the first `FR_LEN - 1` body bytes, and for `FR_LEN = 0` what `P_LEN0` says.
The last two bytes are discarded, whatever they are. With no byte available none is taken. -/
def Obligations.BodyBytesAreTakenAndDelivered : Prop :=
  ∀ (P : Params) (s : State), s.rxMode = .body →
    (∀ b rest, s.link = true → s.rxq = b :: rest → s.bodyBuf.length < s.frLen.toNat →
      deframerStep P s = { s with rxq := rest, bodyBuf := s.bodyBuf ++ [b] }) ∧
    (∀ b rest, s.link = true → s.rxq = b :: rest → s.bodyBuf.length = s.frLen.toNat → 1 ≤ s.frLen.toNat →
      deframerStep P s = { s with
        rxq := rest, bodyBuf := [], rxMode := .hdr,
        evq := s.evq ++ [.payload (s.frCode :: (s.bodyBuf ++ [b]).take (s.frLen.toNat - 1))] }) ∧
    (∀ b rest, s.link = true → s.rxq = b :: rest → s.bodyBuf = [] → s.frLen = 0 →
      (P.len0 = .deliver → deframerStep P s = { s with
        rxq := rest, rxMode := .hdr, evq := s.evq ++ [.payload [s.frCode]] }) ∧
      (P.len0 = .discard → deframerStep P s = { s with
        rxq := rest, rxMode := .hdr, evq := s.evq ++ [.status .emptyFrame .none] })) ∧
    (s.rxq = [] ∨ s.link = false → deframerStep P s = s)

/-- R121: at the start of an attempt a set `CANCEL` stops the deframer, even with bytes waiting, which stay in `RXQ`; no
other deframer step stops it. -/
def Obligations.CancelStopsTheDeframerAtAnAttemptsStart : Prop :=
  ∀ (P : Params) (s : State),
    (s.rxMode = .hdr → s.hdrBuf = [] → s.cancel = true →
      deframerStep P s = { s with rxMode := .stopped, evq := s.evq ++ [.status .cancelled .none] }) ∧
    (s.rxMode ≠ .stopped → (deframerStep P s).rxMode = .stopped →
      s.rxMode = .hdr ∧ s.hdrBuf = [] ∧ s.cancel = true)

/-- R124: with the link down at the start of an attempt the deframer reports it, and nothing else changes. -/
def Obligations.LinkDownIsReportedAtAnAttemptsStart : Prop :=
  ∀ (P : Params) (s : State), s.rxMode = .hdr → s.hdrBuf = [] → s.cancel = false → s.link = false →
    deframerStep P s = { s with evq := s.evq ++ [.status .transportUnavailable .none] }

/-- R122: a timeout in HDR while no byte is available, for both values of `P_HDR_SHORT`; none occurs while one is. -/
def Obligations.HeaderTimeoutFollowsItsRule : Prop :=
  ∀ (P : Params) (s : State), s.rxMode = .hdr →
    (s.link = true → s.rxq ≠ [] → rxTimeout P s = s) ∧
    ((s.link = false ∨ s.rxq = []) → s.cancel = true → rxTimeout P s = { s with
      hdrBuf := [], rxMode := .stopped, evq := s.evq ++ [.status .cancelled .none] }) ∧
    ((s.link = false ∨ s.rxq = []) → s.cancel = false → (s.hdrBuf = [] ∨ P.hdrShort = .keep) → rxTimeout P s = s) ∧
    ((s.link = false ∨ s.rxq = []) → s.cancel = false → s.hdrBuf ≠ [] → P.hdrShort = .discard →
      rxTimeout P s = { s with
        hdrBuf := [], evq := s.evq ++ [.status .headerMismatch (.header s.hdrBuf)] })

/-- R123: a timeout in BODY while no byte is available discards the partial body; none occurs while one is. -/
def Obligations.BodyTimeoutDiscardsThePartialBody : Prop :=
  ∀ (P : Params) (s : State), s.rxMode = .body →
    (s.link = true → s.rxq ≠ [] → rxTimeout P s = s) ∧
    ((s.link = false ∨ s.rxq = []) → rxTimeout P s = { s with
      bodyBuf := [], rxMode := .hdr, evq := s.evq ++ [.status .truncatedBody (.truncated s.frLen s.bodyBuf.length)] })

/-- R125: a stopped deframer takes no step and no timeout occurs; a byte that arrives stays in `RXQ`. -/
def Obligations.StoppedDeframerHolds : Prop :=
  ∀ (P : Params) (s : State), s.rxMode = .stopped →
    deframerStep P s = s ∧ rxTimeout P s = s ∧
    (∀ b : Byte, deframerStep P { s with rxq := s.rxq ++ [b] } = { s with rxq := s.rxq ++ [b] })

/-- The round trip of a frame (40_framer.md section 2, "For all byte sequences `p` of length 1–65535"): from every
state with the deframer at the start of an attempt and exactly one frame's bytes in `RXQ`, the frame's `len(p) + 6`
deframer turns deliver exactly its payload and change nothing but `RXQ`, `EVQ`, `FR_LEN` and `FR_CODE`. -/
def Obligations.DeframingAnEncodedFrameDeliversIt : Prop :=
  ∀ (p : List Byte) (s : State) (later : List Turn), 1 ≤ p.length → p.length ≤ 65535 →
    s.rxMode = .hdr → s.hdrBuf = [] → s.bodyBuf = [] → s.cancel = false → s.link = true → s.rxq = frameEncode p →
    s.agenda = List.replicate (p.length + 6) .deframer ++ later →
    runSteps (p.length + 6) s = .next { s with
      rxq := [], evq := s.evq ++ [.payload p], frLen := BitVec.ofNat 16 p.length, frCode := p.headD 0, agenda := later }

/-- Resynchronisation by discard, never by search (40_framer.md section 2, R119): an attempt on five bytes that do not
begin with the marker consumes exactly those five, whatever stands among them, and the next attempt starts after them. -/
def Obligations.MismatchedHeaderIsDiscardedWhole : Prop :=
  ∀ (s : State) (b0 b1 b2 b3 b4 : Byte) (rest : List Byte) (later : List Turn),
    s.rxMode = .hdr → s.hdrBuf = [] → s.cancel = false → s.link = true →
    s.rxq = b0 :: b1 :: b2 :: b3 :: b4 :: rest → (b0 ≠ 0x5A#8 ∨ b1 ≠ 0xA5#8) →
    s.agenda = List.replicate 5 .deframer ++ later →
    runSteps 5 s = .next { s with
      rxq := rest, evq := s.evq ++ [.status .headerMismatch (.header [b0, b1, b2, b3, b4])], agenda := later }

/-- R57 and R58 over every step: bytes of `RXQ` are taken one per step from the head, appended at the tail, and only
the completion of `OPEN` discards them. -/
def Obligations.RxqIsConsumedFromItsHead : Prop :=
  ∀ s t : State, step s = .next t →
    t.rxq = s.rxq ∨ (t.rxq = s.rxq.tail ∧ s.agenda = .deframer :: t.agenda) ∨
    (∃ b, t.rxq = s.rxq ++ [b] ∧ s.agenda = .rxByte b :: t.agenda) ∨
    (∃ r, t.rxq = [] ∧ s.agenda = .complete :: t.agenda ∧ s.join = some ⟨r, .opening⟩)

/-! ## The checksum unit -/

/-- R152 to R155: the streaming requests and `CRC_COMPUTE`, whatever the link, and what each leaves of `CRC_ACC`. -/
def Obligations.ChecksumRequestsFollowTheirRules : Prop :=
  ∀ s : State,
    exec .crcInit s = .next { afterReply s .ok .none with crcAcc := 0xFFFF#16 } ∧
    (∀ b : Int, 0 ≤ b → b ≤ 255 →
      exec (.crcByte b) s = .next { afterReply s .ok .none with crcAcc := crcStep s.crcAcc (BitVec.ofInt 8 b) }) ∧
    (∀ b : Int, (b < 0 ∨ 255 < b) → exec (.crcByte b) s = .next (afterReply s .invalidArgument (.operand 0))) ∧
    exec .crcRead s = .next (afterReply s .ok (.crc (s.crcAcc ^^^ 0xFFFF#16))) ∧
    (∀ data, exec (.crcCompute data) s = .next (afterReply s .ok (.crc (crc16Genibus data))))

/-- R160. -/
def Obligations.ValidatorFollowsItsRule : Prop :=
  ∀ (data : List Byte) (c : Int) (s : State),
    (0 ≤ c → c ≤ 65535 → (crc16Genibus data).toNat = c.toNat →
      exec (.crcValidate data c) s =
        .next (afterReply s .ok (.checksums (crc16Genibus data) (crc16Genibus data)))) ∧
    (0 ≤ c → c ≤ 65535 → (crc16Genibus data).toNat ≠ c.toNat →
      exec (.crcValidate data c) s =
        .next (afterReply s .checksumMismatch (.checksums (BitVec.ofInt 16 c) (crc16Genibus data)))) ∧
    ((c < 0 ∨ 65535 < c) → exec (.crcValidate data c) s = .next (afterReply s .invalidArgument (.operand 1)))

/-- The values of 41_checksum.md section 2 and 3 that the spec derives from its rule R151, and the single steps of
95_test_vectors.md section 2.3. -/
def Obligations.ChecksumHasTheSpecsValues : Prop :=
  crc16Genibus [] = 0x0000#16 ∧ crc16Genibus [0xAB#8, 0xCD#8, 0x12#8, 0x34#8] = 0xF836#16 ∧
  crc16Genibus [0x00#8] = 0x1E0F#16 ∧ crc16Genibus [0xFF#8] = 0x00FF#16 ∧
  crcStep 0x1234#16 0x56#8 = 0x3C40#16 ∧ crcStep 0x8000#16 0x00#8 = 0x9188#16

/-- The streaming invariant (41_checksum.md section 2, a sentence the spec marks as derived): `CRC_INIT`, one
`CRC_BYTE` per byte, `CRC_READ` answer the CRC of the byte string, from every state. -/
def Obligations.StreamedChecksumIsTheFunction : Prop :=
  ∀ (data : List Byte) (s : State), ∃ t : State,
    execAll (.crcInit :: (data.map (fun b => .crcByte (Int.ofNat b.toNat)) ++ [.crcRead])) s = .next t ∧
    t.replies.getLast? = some ⟨s.serving, .ok, .crc (crc16Genibus data)⟩ ∧
    t.replies.length = s.replies.length + data.length + 2 ∧ t.crcAcc ^^^ 0xFFFF#16 = crc16Genibus data

/-- The residue (41_checksum.md section 3, R157, which the spec marks as derived): with its checksum appended, high
byte first, every byte string leaves `0x1D0F`, so its CRC is `0xE2F0`. -/
def Obligations.ChecksumResidueIsConstant : Prop :=
  ∀ d : List Byte,
    crcFold 0xFFFF#16 (d ++ be16 (crc16Genibus d)) = 0x1D0F#16 ∧
    crc16Genibus (d ++ be16 (crc16Genibus d)) = 0xE2F0#16

/-- The validator finds every error confined to one byte of a data frame: a consequence of rule R151 (41_checksum.md
section 1) for R160's comparison. -/
def Obligations.ValidatorFindsOneByteErrors : Prop :=
  ∀ (pre post : List Byte) (b b' : Byte) (s : State), b ≠ b' →
    ∃ t : State,
      exec (.crcValidate (pre ++ b' :: post) (Int.ofNat (crc16Genibus (pre ++ b :: post)).toNat)) s = .next t ∧
      t.replies.getLast? = some ⟨s.serving, .checksumMismatch,
        .checksums (crc16Genibus (pre ++ b :: post)) (crc16Genibus (pre ++ b' :: post))⟩

/-- A data frame's check (30_encoding.md section 6 with 41_checksum.md section 4): the request answers `OK` exactly
when the frame's invariant holds, and gets exactly one reply. -/
def Obligations.FrameCheckAnswersItsInvariant : Prop :=
  ∀ (f : DataFrame) (s : State), ∃ t : State,
    exec (validateRequest f) s = .next t ∧ t.replies.length = s.replies.length + 1 ∧
    t.replies.getLast? = some ⟨s.serving, if validFrame f then .ok else .checksumMismatch,
      .checksums f.checksum (crc16Genibus f.data)⟩

/-! ## The direct-enable sequencer -/

/-- R220, its accepting step: with the link up the frame of step 1 goes out, the flags are latched and the reply is
deferred; with the link down the request is answered and nothing else is written (log 13). -/
def Obligations.DirectEnableStartsTheSequence : Prop :=
  ∀ (f1 f2 : Bool) (s : State), s.seqStep = .idle →
    (s.link = true → exec (.directEnable f1 f2) s = .next { s with
      reqPort := s.reqPort.eraseP (fun q => q.requester == s.serving)
      txq := s.txq ++ wireFrame ([0x74#8, 0x00#8] ++ Config.params.directArgs1)
      evq := s.evq ++ [.cmdSent ([0x74#8, 0x00#8] ++ Config.params.directArgs1)]
      seqF1 := f1, seqF2 := f2, seqStep := .wait1, seqReq := some s.serving }) ∧
    (s.link = false → exec (.directEnable f1 f2) s = .next (afterReply s .transportUnavailable (.seqStep 1)))

/-- R221: while a sequence runs `DIRECT_ENABLE` is held: it stays at the port and nothing changes. Every other request is
served as it is without a sequence; `OPEN` and `CLOSE`, which end the sequence, have statements of their own. -/
def Obligations.DirectEnableIsHeldWhileASequenceRuns : Prop :=
  ∀ s : State,
    (∀ f1 f2 : Bool, s.seqStep ≠ .idle → exec (.directEnable f1 f2) s = .next s) ∧
    (∀ (i : Instr) (k : SeqStep) (t : State), (∀ f1 f2, i ≠ .directEnable f1 f2) → i ≠ .openSession →
      i ≠ .closeSession → exec i s = .next t → exec i { s with seqStep := k } = .next { t with seqStep := k })

/-- R222, R223, R224: what `DELAY_DONE` does in each state of the sequencer, for every value of the parameters. A middle
step that cannot be sent ends the sequence with its number, and what was sent stays sent. -/
def Obligations.DelayDoneTakesTheNextStep : Prop :=
  ∀ (P : Params) (s : State),
    (s.seqStep = .idle → delayDone P s = s) ∧
    (s.seqStep = .wait1 → s.link = true → delayDone P s = { s with
      txq := s.txq ++ wireFrame [0x74#8, 0x02#8, if s.seqF1 then 0x01#8 else 0x00#8, if s.seqF2 then 0x01#8 else 0x00#8]
      evq := s.evq ++ [.cmdSent [0x74#8, 0x02#8, if s.seqF1 then 0x01#8 else 0x00#8, if s.seqF2 then 0x01#8 else 0x00#8]]
      seqStep := .wait2 }) ∧
    (s.seqStep = .wait2 → s.link = true → delayDone P s = { s with
      txq := s.txq ++ wireFrame ([0x74#8, 0x0B#8] ++ P.directArgs3)
      evq := s.evq ++ [.cmdSent ([0x74#8, 0x0B#8] ++ P.directArgs3)]
      seqStep := .wait3 }) ∧
    (∀ r, s.seqStep = .wait1 → s.link = false → s.seqReq = some r → delayDone P s = { s with
      seqStep := .idle, seqReq := none, replies := s.replies ++ [⟨r, .transportUnavailable, .seqStep 2⟩] }) ∧
    (∀ r, s.seqStep = .wait2 → s.link = false → s.seqReq = some r → delayDone P s = { s with
      seqStep := .idle, seqReq := none, replies := s.replies ++ [⟨r, .transportUnavailable, .seqStep 3⟩] }) ∧
    (∀ r, s.seqStep = .wait3 → s.seqReq = some r → delayDone P s = { s with
      seqStep := .idle, seqReq := none
      replies := s.replies ++ [⟨r, .ok, .payloads ([0x74#8, 0x00#8] ++ P.directArgs1)
        [0x74#8, 0x02#8, if s.seqF1 then 0x01#8 else 0x00#8, if s.seqF2 then 0x01#8 else 0x00#8]
        ([0x74#8, 0x0B#8] ++ P.directArgs3)⟩] })

/-- The whole sequence (42_command_encoder.md section 7; 70_reset_and_hazards.md section 4, a sentence the spec marks
as derived): the three frames in order with one `DELAY_DONE` after each, then the one reply. -/
def Obligations.SequenceSendsThreeFramesAndRepliesOnce : Prop :=
  ∀ (f1 f2 : Bool) (r : Nat) (s : State) (later : List Turn),
    s.seqStep = .idle → s.link = true → presented r s = some ⟨r, .directEnable f1 f2⟩ →
    s.agenda = [.serve r, .delayDone, .delayDone, .delayDone] ++ later →
    ∃ t : State, runSteps 4 s = .next t ∧ t.agenda = later ∧ t.seqStep = .idle ∧ t.seqReq = none ∧
      t.txq = s.txq ++ (wireFrame (directPayload1 Config.params) ++ wireFrame (directPayload2 f1 f2) ++
        wireFrame (directPayload3 Config.params)) ∧
      t.evq = s.evq ++ [.cmdSent (directPayload1 Config.params), .cmdSent (directPayload2 f1 f2),
        .cmdSent (directPayload3 Config.params)] ∧
      t.replies = s.replies ++ [⟨r, .ok, .payloads (directPayload1 Config.params) (directPayload2 f1 f2)
        (directPayload3 Config.params)⟩]

/-! ## Sessions -/

/-- R273: the accepting step of `CLOSE` sets `CANCEL`, ends a running sequence with `CANCELLED` to its request, and holds
the request; its completion step, enabled while the deframer is STOPPED, gives the reply. A `CLOSE` served while another
`OPEN` or `CLOSE` is held has a statement of its own. -/
def Obligations.CloseFollowsItsRule : Prop :=
  ∀ s : State,
    (s.join = none → s.seqStep = .idle → exec .closeSession s = .next { s with
      reqPort := s.reqPort.eraseP (fun q => q.requester == s.serving)
      cancel := true, join := some ⟨s.serving, .closing⟩ }) ∧
    (∀ r, s.join = none → s.seqStep ≠ .idle → s.seqReq = some r → exec .closeSession s = .next { s with
      reqPort := s.reqPort.eraseP (fun q => q.requester == s.serving)
      cancel := true, join := some ⟨s.serving, .closing⟩, seqStep := .idle, seqReq := none
      replies := s.replies ++ [⟨r, .cancelled, .none⟩] }) ∧
    (∀ r, s.join = some ⟨r, .closing⟩ →
      (s.rxMode = .stopped → completeJoin s = { s with
        join := none, replies := s.replies ++ [⟨r, .ok, .none⟩] }) ∧
      (s.rxMode ≠ .stopped → completeJoin s = s))

/-- R274: `OPEN` is accepted as `CLOSE` is; its completion step, enabled while the deframer is STOPPED, empties `RXQ` and
the buffers, clears `CANCEL`, starts the deframer and gives the reply. An `OPEN` served while another `OPEN` or `CLOSE` is
held has a statement of its own. -/
def Obligations.OpenFollowsItsRule : Prop :=
  ∀ s : State,
    (s.join = none → s.seqStep = .idle → exec .openSession s = .next { s with
      reqPort := s.reqPort.eraseP (fun q => q.requester == s.serving)
      cancel := true, join := some ⟨s.serving, .opening⟩ }) ∧
    (∀ r, s.join = none → s.seqStep ≠ .idle → s.seqReq = some r → exec .openSession s = .next { s with
      reqPort := s.reqPort.eraseP (fun q => q.requester == s.serving)
      cancel := true, join := some ⟨s.serving, .opening⟩, seqStep := .idle, seqReq := none
      replies := s.replies ++ [⟨r, .cancelled, .none⟩] }) ∧
    (∀ r, s.join = some ⟨r, .opening⟩ →
      (s.rxMode = .stopped → completeJoin s = { s with
        rxq := [], hdrBuf := [], bodyBuf := [], cancel := false, rxMode := .hdr
        join := none, replies := s.replies ++ [⟨r, .ok, .none⟩] }) ∧
      (s.rxMode ≠ .stopped → completeJoin s = s))

/-- While an `OPEN` or `CLOSE` is held, another one stays at the port and nothing changes: read by inference from
70_reset_and_hazards.md section 2, by which every one completes (log 12). -/
def Obligations.SecondJoinIsHeld : Prop :=
  ∀ s : State, s.join ≠ none → exec .openSession s = .next s ∧ exec .closeSession s = .next s

/-- A cancelled attempt runs out (70_reset_and_hazards.md section 2, R275, which the spec marks as derived), as a law of
every step: the steps left to a deframer with `CANCEL` set, at most 65541, are none exactly when it is STOPPED. Until then
one of its steps or a read timeout is enabled, each such step leaves fewer, and no other step leaves more or takes `CANCEL`
back or the held request away. The turns are the model's (log 1). -/
def Obligations.CancelledAttemptRunsOut : Prop :=
  ∀ s : State, Legal s → s.cancel = true →
    attemptLeft s ≤ 65541 ∧ (attemptLeft s = 0 ↔ s.rxMode = .stopped) ∧
    (s.rxMode ≠ .stopped →
      (deframerEnabled s = true ∨ rxTimeoutEnabled s = true) ∧
      ∀ t : State, step s = .next t →
        t.cancel = true ∧ attemptLeft t ≤ attemptLeft s ∧ (s.join ≠ none → t.join = s.join) ∧
        (∀ rest, s.agenda = .deframer :: rest → deframerEnabled s = true → attemptLeft t < attemptLeft s) ∧
        (∀ rest, s.agenda = .rxTimeout :: rest → rxTimeoutEnabled s = true → attemptLeft t < attemptLeft s))

/-- The join ends (70_reset_and_hazards.md section 2, R275, which the spec marks as derived): from every legal state with
`CANCEL` set, a schedule leaves the deframer STOPPED if it holds at least 65541 rounds, a round being a turn of the
deframer directly followed by a read timeout, with any other turns between the rounds but the completion of an `OPEN` or
`CLOSE`: requests served and presented, bytes that arrive, the inputs. A held request is still held then, and a completion
turn after the schedule gives its reply. A schedule of turns stands for the spec's fairness (log 21). -/
def Obligations.CancelledDeframerStops : Prop :=
  ∀ (sched later : List Turn) (s : State), Legal s → s.cancel = true → Turn.complete ∉ sched → 65541 ≤ rounds sched →
    s.agenda = sched ++ later →
    ∃ t : State, runSteps sched.length s = .next t ∧ t.rxMode = .stopped ∧ t.cancel = true ∧ t.agenda = later ∧
      (s.join ≠ none → t.join = s.join) ∧
      (∀ r k rest, s.join = some ⟨r, k⟩ → later = .complete :: rest →
        ∃ u : State, runSteps (sched.length + 1) s = .next u ∧ u.join = none ∧ u.agenda = rest ∧
          u.replies = t.replies ++ [⟨r, .ok, .none⟩])

/-! ## Replies, events, who writes what -/

/-- The numeric codes of R240, and the codes it reserves. -/
def Obligations.StatusCodesAreTheSpecs : Prop :=
  (∀ st : Status, statusOfCode (statusCode st) = some st) ∧
  statusCode .ok = 0x00#8 ∧ statusCode .cancelled = 0x01#8 ∧ statusCode .headerMismatch = 0x02#8 ∧
  statusCode .truncatedBody = 0x03#8 ∧ statusCode .transportUnavailable = 0x04#8 ∧
  statusCode .checksumMismatch = 0x05#8 ∧ statusCode .invalidArgument = 0x06#8 ∧
  statusCode .emptyFrame = 0x07#8 ∧ statusCode .refused = 0x08#8 ∧
  statusCode .payloadLengthMismatch = 0x10#8 ∧ statusCode .unknownResponseCode = 0x11#8 ∧
  (∀ c : Byte, 0x09 ≤ c.toNat → c.toNat ≤ 0x0F → statusOfCode c = none)

/-- The statuses reserved for the surrounding dispatcher (60_exceptions.md section 1) are never raised: no step puts
one into an event or a reply. -/
def Obligations.DispatcherStatusesAreNeverRaised : Prop :=
  ∀ s t : State, OnlyBlockStatuses s → step s = .next t → OnlyBlockStatuses t

/-- Each request gets exactly one response (10_state.md section 2), as a law of every step from every legal state. A
step that presents no request answers some of the outstanding requests, each once and to its own requester, and every
other one stays outstanding: the requesters outstanding before are those of the replies it adds and those outstanding
after. A step that presents one adds no reply and at most that requester, who had none outstanding (log 11). Replies
given stay (log 14). -/
def Obligations.EveryRequestGetsOneReply : Prop :=
  ∀ s t : State, Legal s → step s = .next t →
    ∃ rs : List Reply, t.replies = s.replies ++ rs ∧
      ((∀ r i rest, s.agenda ≠ .present r i :: rest) →
        (outstanding s).Perm (rs.map (·.requester) ++ outstanding t)) ∧
      (∀ r i rest, s.agenda = .present r i :: rest →
        rs = [] ∧ (outstanding t = outstanding s ∨
          (r ∉ outstanding s ∧ (outstanding t).Perm (r :: outstanding s))))

/-- R59 for `EVQ`, over every step: events keep their order, at most one is appended, and only the host removes one,
from the head. -/
def Obligations.EvqIsAFifo : Prop :=
  ∀ s t : State, step s = .next t →
    t.evq = s.evq ∨ (∃ e, t.evq = s.evq ++ [e]) ∨ (t.evq = s.evq.tail ∧ s.agenda = .takeEv :: t.agenda)

/-- Who writes what (60_exceptions.md section 6, R259; R29, R30, R36): `CRC_ACC` only by `CRC_INIT` and `CRC_BYTE`, the
inputs only by the environment, `CANCEL` only by `OPEN` and `CLOSE`. -/
def Obligations.SharedRegistersHaveTheirWriters : Prop :=
  ∀ s t : State, step s = .next t →
    (t.crcAcc ≠ s.crcAcc → ∃ r q, s.agenda = .serve r :: t.agenda ∧ presented r s = some q ∧
      (q.op = .crcInit ∨ ∃ b, q.op = .crcByte b)) ∧
    (t.link ≠ s.link → s.agenda = .setLink t.link :: t.agenda) ∧
    (t.dataModeActive ≠ s.dataModeActive → s.agenda = .setDataMode t.dataModeActive :: t.agenda) ∧
    (t.cancel ≠ s.cancel →
      (∃ r q, s.agenda = .serve r :: t.agenda ∧ presented r s = some q ∧
        (q.op = .openSession ∨ q.op = .closeSession) ∧ t.cancel = true) ∨
      (∃ r, s.agenda = .complete :: t.agenda ∧ s.join = some ⟨r, .opening⟩ ∧ t.cancel = false))
end

