-- ==== Sys2Proof/Laws/State.lean ====
section
/-! SUPPORT. What each shared update leaves in each field of the state: one lemma per field and update, true by `rfl`. -/

namespace Sys2Proof.Machine

@[simp] theorem emit_rxMode (ev : Event) (s : State) : (emit ev s).rxMode = s.rxMode := rfl
@[simp] theorem emit_hdrBuf (ev : Event) (s : State) : (emit ev s).hdrBuf = s.hdrBuf := rfl
@[simp] theorem emit_frLen (ev : Event) (s : State) : (emit ev s).frLen = s.frLen := rfl
@[simp] theorem emit_frCode (ev : Event) (s : State) : (emit ev s).frCode = s.frCode := rfl
@[simp] theorem emit_bodyBuf (ev : Event) (s : State) : (emit ev s).bodyBuf = s.bodyBuf := rfl
@[simp] theorem emit_cancel (ev : Event) (s : State) : (emit ev s).cancel = s.cancel := rfl
@[simp] theorem emit_link (ev : Event) (s : State) : (emit ev s).link = s.link := rfl
@[simp] theorem emit_crcAcc (ev : Event) (s : State) : (emit ev s).crcAcc = s.crcAcc := rfl
@[simp] theorem emit_seqStep (ev : Event) (s : State) : (emit ev s).seqStep = s.seqStep := rfl
@[simp] theorem emit_seqF1 (ev : Event) (s : State) : (emit ev s).seqF1 = s.seqF1 := rfl
@[simp] theorem emit_seqF2 (ev : Event) (s : State) : (emit ev s).seqF2 = s.seqF2 := rfl
@[simp] theorem emit_dataModeActive (ev : Event) (s : State) : (emit ev s).dataModeActive = s.dataModeActive := rfl
@[simp] theorem emit_rxq (ev : Event) (s : State) : (emit ev s).rxq = s.rxq := rfl
@[simp] theorem emit_txq (ev : Event) (s : State) : (emit ev s).txq = s.txq := rfl
@[simp] theorem emit_evq (ev : Event) (s : State) : (emit ev s).evq = s.evq ++ [ev] := rfl
@[simp] theorem emit_reqPort (ev : Event) (s : State) : (emit ev s).reqPort = s.reqPort := rfl
@[simp] theorem emit_join (ev : Event) (s : State) : (emit ev s).join = s.join := rfl
@[simp] theorem emit_seqReq (ev : Event) (s : State) : (emit ev s).seqReq = s.seqReq := rfl
@[simp] theorem emit_replies (ev : Event) (s : State) : (emit ev s).replies = s.replies := rfl
@[simp] theorem emit_serving (ev : Event) (s : State) : (emit ev s).serving = s.serving := rfl
@[simp] theorem emit_agenda (ev : Event) (s : State) : (emit ev s).agenda = s.agenda := rfl

@[simp] theorem txPut_rxMode (bytes : List Byte) (s : State) : (txPut bytes s).rxMode = s.rxMode := rfl
@[simp] theorem txPut_hdrBuf (bytes : List Byte) (s : State) : (txPut bytes s).hdrBuf = s.hdrBuf := rfl
@[simp] theorem txPut_frLen (bytes : List Byte) (s : State) : (txPut bytes s).frLen = s.frLen := rfl
@[simp] theorem txPut_frCode (bytes : List Byte) (s : State) : (txPut bytes s).frCode = s.frCode := rfl
@[simp] theorem txPut_bodyBuf (bytes : List Byte) (s : State) : (txPut bytes s).bodyBuf = s.bodyBuf := rfl
@[simp] theorem txPut_cancel (bytes : List Byte) (s : State) : (txPut bytes s).cancel = s.cancel := rfl
@[simp] theorem txPut_link (bytes : List Byte) (s : State) : (txPut bytes s).link = s.link := rfl
@[simp] theorem txPut_crcAcc (bytes : List Byte) (s : State) : (txPut bytes s).crcAcc = s.crcAcc := rfl
@[simp] theorem txPut_seqStep (bytes : List Byte) (s : State) : (txPut bytes s).seqStep = s.seqStep := rfl
@[simp] theorem txPut_seqF1 (bytes : List Byte) (s : State) : (txPut bytes s).seqF1 = s.seqF1 := rfl
@[simp] theorem txPut_seqF2 (bytes : List Byte) (s : State) : (txPut bytes s).seqF2 = s.seqF2 := rfl
@[simp] theorem txPut_dataModeActive (bytes : List Byte) (s : State) : (txPut bytes s).dataModeActive = s.dataModeActive := rfl
@[simp] theorem txPut_rxq (bytes : List Byte) (s : State) : (txPut bytes s).rxq = s.rxq := rfl
@[simp] theorem txPut_txq (bytes : List Byte) (s : State) : (txPut bytes s).txq = s.txq ++ bytes := rfl
@[simp] theorem txPut_evq (bytes : List Byte) (s : State) : (txPut bytes s).evq = s.evq := rfl
@[simp] theorem txPut_reqPort (bytes : List Byte) (s : State) : (txPut bytes s).reqPort = s.reqPort := rfl
@[simp] theorem txPut_join (bytes : List Byte) (s : State) : (txPut bytes s).join = s.join := rfl
@[simp] theorem txPut_seqReq (bytes : List Byte) (s : State) : (txPut bytes s).seqReq = s.seqReq := rfl
@[simp] theorem txPut_replies (bytes : List Byte) (s : State) : (txPut bytes s).replies = s.replies := rfl
@[simp] theorem txPut_serving (bytes : List Byte) (s : State) : (txPut bytes s).serving = s.serving := rfl
@[simp] theorem txPut_agenda (bytes : List Byte) (s : State) : (txPut bytes s).agenda = s.agenda := rfl

@[simp] theorem rxPush_rxMode (b : Byte) (s : State) : (rxPush b s).rxMode = s.rxMode := rfl
@[simp] theorem rxPush_hdrBuf (b : Byte) (s : State) : (rxPush b s).hdrBuf = s.hdrBuf := rfl
@[simp] theorem rxPush_frLen (b : Byte) (s : State) : (rxPush b s).frLen = s.frLen := rfl
@[simp] theorem rxPush_frCode (b : Byte) (s : State) : (rxPush b s).frCode = s.frCode := rfl
@[simp] theorem rxPush_bodyBuf (b : Byte) (s : State) : (rxPush b s).bodyBuf = s.bodyBuf := rfl
@[simp] theorem rxPush_cancel (b : Byte) (s : State) : (rxPush b s).cancel = s.cancel := rfl
@[simp] theorem rxPush_link (b : Byte) (s : State) : (rxPush b s).link = s.link := rfl
@[simp] theorem rxPush_crcAcc (b : Byte) (s : State) : (rxPush b s).crcAcc = s.crcAcc := rfl
@[simp] theorem rxPush_seqStep (b : Byte) (s : State) : (rxPush b s).seqStep = s.seqStep := rfl
@[simp] theorem rxPush_seqF1 (b : Byte) (s : State) : (rxPush b s).seqF1 = s.seqF1 := rfl
@[simp] theorem rxPush_seqF2 (b : Byte) (s : State) : (rxPush b s).seqF2 = s.seqF2 := rfl
@[simp] theorem rxPush_dataModeActive (b : Byte) (s : State) : (rxPush b s).dataModeActive = s.dataModeActive := rfl
@[simp] theorem rxPush_rxq (b : Byte) (s : State) : (rxPush b s).rxq = s.rxq ++ [b] := rfl
@[simp] theorem rxPush_txq (b : Byte) (s : State) : (rxPush b s).txq = s.txq := rfl
@[simp] theorem rxPush_evq (b : Byte) (s : State) : (rxPush b s).evq = s.evq := rfl
@[simp] theorem rxPush_reqPort (b : Byte) (s : State) : (rxPush b s).reqPort = s.reqPort := rfl
@[simp] theorem rxPush_join (b : Byte) (s : State) : (rxPush b s).join = s.join := rfl
@[simp] theorem rxPush_seqReq (b : Byte) (s : State) : (rxPush b s).seqReq = s.seqReq := rfl
@[simp] theorem rxPush_replies (b : Byte) (s : State) : (rxPush b s).replies = s.replies := rfl
@[simp] theorem rxPush_serving (b : Byte) (s : State) : (rxPush b s).serving = s.serving := rfl
@[simp] theorem rxPush_agenda (b : Byte) (s : State) : (rxPush b s).agenda = s.agenda := rfl

@[simp] theorem replyTo_rxMode (r : Nat) (st : Status) (info : Info) (s : State) : (replyTo r st info s).rxMode = s.rxMode := rfl
@[simp] theorem replyTo_hdrBuf (r : Nat) (st : Status) (info : Info) (s : State) : (replyTo r st info s).hdrBuf = s.hdrBuf := rfl
@[simp] theorem replyTo_frLen (r : Nat) (st : Status) (info : Info) (s : State) : (replyTo r st info s).frLen = s.frLen := rfl
@[simp] theorem replyTo_frCode (r : Nat) (st : Status) (info : Info) (s : State) : (replyTo r st info s).frCode = s.frCode := rfl
@[simp] theorem replyTo_bodyBuf (r : Nat) (st : Status) (info : Info) (s : State) : (replyTo r st info s).bodyBuf = s.bodyBuf := rfl
@[simp] theorem replyTo_cancel (r : Nat) (st : Status) (info : Info) (s : State) : (replyTo r st info s).cancel = s.cancel := rfl
@[simp] theorem replyTo_link (r : Nat) (st : Status) (info : Info) (s : State) : (replyTo r st info s).link = s.link := rfl
@[simp] theorem replyTo_crcAcc (r : Nat) (st : Status) (info : Info) (s : State) : (replyTo r st info s).crcAcc = s.crcAcc := rfl
@[simp] theorem replyTo_seqStep (r : Nat) (st : Status) (info : Info) (s : State) : (replyTo r st info s).seqStep = s.seqStep := rfl
@[simp] theorem replyTo_seqF1 (r : Nat) (st : Status) (info : Info) (s : State) : (replyTo r st info s).seqF1 = s.seqF1 := rfl
@[simp] theorem replyTo_seqF2 (r : Nat) (st : Status) (info : Info) (s : State) : (replyTo r st info s).seqF2 = s.seqF2 := rfl
@[simp] theorem replyTo_dataModeActive (r : Nat) (st : Status) (info : Info) (s : State) : (replyTo r st info s).dataModeActive = s.dataModeActive := rfl
@[simp] theorem replyTo_rxq (r : Nat) (st : Status) (info : Info) (s : State) : (replyTo r st info s).rxq = s.rxq := rfl
@[simp] theorem replyTo_txq (r : Nat) (st : Status) (info : Info) (s : State) : (replyTo r st info s).txq = s.txq := rfl
@[simp] theorem replyTo_evq (r : Nat) (st : Status) (info : Info) (s : State) : (replyTo r st info s).evq = s.evq := rfl
@[simp] theorem replyTo_reqPort (r : Nat) (st : Status) (info : Info) (s : State) : (replyTo r st info s).reqPort = s.reqPort := rfl
@[simp] theorem replyTo_join (r : Nat) (st : Status) (info : Info) (s : State) : (replyTo r st info s).join = s.join := rfl
@[simp] theorem replyTo_seqReq (r : Nat) (st : Status) (info : Info) (s : State) : (replyTo r st info s).seqReq = s.seqReq := rfl
@[simp] theorem replyTo_replies (r : Nat) (st : Status) (info : Info) (s : State) : (replyTo r st info s).replies = s.replies ++ [⟨r, st, info⟩] := rfl
@[simp] theorem replyTo_serving (r : Nat) (st : Status) (info : Info) (s : State) : (replyTo r st info s).serving = s.serving := rfl
@[simp] theorem replyTo_agenda (r : Nat) (st : Status) (info : Info) (s : State) : (replyTo r st info s).agenda = s.agenda := rfl

@[simp] theorem accept_rxMode (s : State) : (accept s).rxMode = s.rxMode := rfl
@[simp] theorem accept_hdrBuf (s : State) : (accept s).hdrBuf = s.hdrBuf := rfl
@[simp] theorem accept_frLen (s : State) : (accept s).frLen = s.frLen := rfl
@[simp] theorem accept_frCode (s : State) : (accept s).frCode = s.frCode := rfl
@[simp] theorem accept_bodyBuf (s : State) : (accept s).bodyBuf = s.bodyBuf := rfl
@[simp] theorem accept_cancel (s : State) : (accept s).cancel = s.cancel := rfl
@[simp] theorem accept_link (s : State) : (accept s).link = s.link := rfl
@[simp] theorem accept_crcAcc (s : State) : (accept s).crcAcc = s.crcAcc := rfl
@[simp] theorem accept_seqStep (s : State) : (accept s).seqStep = s.seqStep := rfl
@[simp] theorem accept_seqF1 (s : State) : (accept s).seqF1 = s.seqF1 := rfl
@[simp] theorem accept_seqF2 (s : State) : (accept s).seqF2 = s.seqF2 := rfl
@[simp] theorem accept_dataModeActive (s : State) : (accept s).dataModeActive = s.dataModeActive := rfl
@[simp] theorem accept_rxq (s : State) : (accept s).rxq = s.rxq := rfl
@[simp] theorem accept_txq (s : State) : (accept s).txq = s.txq := rfl
@[simp] theorem accept_evq (s : State) : (accept s).evq = s.evq := rfl
@[simp] theorem accept_reqPort (s : State) : (accept s).reqPort = s.reqPort.eraseP (fun q => q.requester == s.serving) := rfl
@[simp] theorem accept_join (s : State) : (accept s).join = s.join := rfl
@[simp] theorem accept_seqReq (s : State) : (accept s).seqReq = s.seqReq := rfl
@[simp] theorem accept_replies (s : State) : (accept s).replies = s.replies := rfl
@[simp] theorem accept_serving (s : State) : (accept s).serving = s.serving := rfl
@[simp] theorem accept_agenda (s : State) : (accept s).agenda = s.agenda := rfl

@[simp] theorem reply_rxMode (st : Status) (info : Info) (s : State) : (reply st info s).rxMode = s.rxMode := rfl
@[simp] theorem reply_hdrBuf (st : Status) (info : Info) (s : State) : (reply st info s).hdrBuf = s.hdrBuf := rfl
@[simp] theorem reply_frLen (st : Status) (info : Info) (s : State) : (reply st info s).frLen = s.frLen := rfl
@[simp] theorem reply_frCode (st : Status) (info : Info) (s : State) : (reply st info s).frCode = s.frCode := rfl
@[simp] theorem reply_bodyBuf (st : Status) (info : Info) (s : State) : (reply st info s).bodyBuf = s.bodyBuf := rfl
@[simp] theorem reply_cancel (st : Status) (info : Info) (s : State) : (reply st info s).cancel = s.cancel := rfl
@[simp] theorem reply_link (st : Status) (info : Info) (s : State) : (reply st info s).link = s.link := rfl
@[simp] theorem reply_crcAcc (st : Status) (info : Info) (s : State) : (reply st info s).crcAcc = s.crcAcc := rfl
@[simp] theorem reply_seqStep (st : Status) (info : Info) (s : State) : (reply st info s).seqStep = s.seqStep := rfl
@[simp] theorem reply_seqF1 (st : Status) (info : Info) (s : State) : (reply st info s).seqF1 = s.seqF1 := rfl
@[simp] theorem reply_seqF2 (st : Status) (info : Info) (s : State) : (reply st info s).seqF2 = s.seqF2 := rfl
@[simp] theorem reply_dataModeActive (st : Status) (info : Info) (s : State) : (reply st info s).dataModeActive = s.dataModeActive := rfl
@[simp] theorem reply_rxq (st : Status) (info : Info) (s : State) : (reply st info s).rxq = s.rxq := rfl
@[simp] theorem reply_txq (st : Status) (info : Info) (s : State) : (reply st info s).txq = s.txq := rfl
@[simp] theorem reply_evq (st : Status) (info : Info) (s : State) : (reply st info s).evq = s.evq := rfl
@[simp] theorem reply_reqPort (st : Status) (info : Info) (s : State) : (reply st info s).reqPort = s.reqPort.eraseP (fun q => q.requester == s.serving) := rfl
@[simp] theorem reply_join (st : Status) (info : Info) (s : State) : (reply st info s).join = s.join := rfl
@[simp] theorem reply_seqReq (st : Status) (info : Info) (s : State) : (reply st info s).seqReq = s.seqReq := rfl
@[simp] theorem reply_replies (st : Status) (info : Info) (s : State) : (reply st info s).replies = s.replies ++ [⟨s.serving, st, info⟩] := rfl
@[simp] theorem reply_serving (st : Status) (info : Info) (s : State) : (reply st info s).serving = s.serving := rfl
@[simp] theorem reply_agenda (st : Status) (info : Info) (s : State) : (reply st info s).agenda = s.agenda := rfl

@[simp] theorem raiseReply_rxMode (st : Status) (info : Info) (s : State) : (raiseReply st info s).rxMode = s.rxMode := rfl
@[simp] theorem raiseReply_hdrBuf (st : Status) (info : Info) (s : State) : (raiseReply st info s).hdrBuf = s.hdrBuf := rfl
@[simp] theorem raiseReply_frLen (st : Status) (info : Info) (s : State) : (raiseReply st info s).frLen = s.frLen := rfl
@[simp] theorem raiseReply_frCode (st : Status) (info : Info) (s : State) : (raiseReply st info s).frCode = s.frCode := rfl
@[simp] theorem raiseReply_bodyBuf (st : Status) (info : Info) (s : State) : (raiseReply st info s).bodyBuf = s.bodyBuf := rfl
@[simp] theorem raiseReply_cancel (st : Status) (info : Info) (s : State) : (raiseReply st info s).cancel = s.cancel := rfl
@[simp] theorem raiseReply_link (st : Status) (info : Info) (s : State) : (raiseReply st info s).link = s.link := rfl
@[simp] theorem raiseReply_crcAcc (st : Status) (info : Info) (s : State) : (raiseReply st info s).crcAcc = s.crcAcc := rfl
@[simp] theorem raiseReply_seqStep (st : Status) (info : Info) (s : State) : (raiseReply st info s).seqStep = s.seqStep := rfl
@[simp] theorem raiseReply_seqF1 (st : Status) (info : Info) (s : State) : (raiseReply st info s).seqF1 = s.seqF1 := rfl
@[simp] theorem raiseReply_seqF2 (st : Status) (info : Info) (s : State) : (raiseReply st info s).seqF2 = s.seqF2 := rfl
@[simp] theorem raiseReply_dataModeActive (st : Status) (info : Info) (s : State) : (raiseReply st info s).dataModeActive = s.dataModeActive := rfl
@[simp] theorem raiseReply_rxq (st : Status) (info : Info) (s : State) : (raiseReply st info s).rxq = s.rxq := rfl
@[simp] theorem raiseReply_txq (st : Status) (info : Info) (s : State) : (raiseReply st info s).txq = s.txq := rfl
@[simp] theorem raiseReply_evq (st : Status) (info : Info) (s : State) : (raiseReply st info s).evq = s.evq := rfl
@[simp] theorem raiseReply_reqPort (st : Status) (info : Info) (s : State) : (raiseReply st info s).reqPort = s.reqPort.eraseP (fun q => q.requester == s.serving) := rfl
@[simp] theorem raiseReply_join (st : Status) (info : Info) (s : State) : (raiseReply st info s).join = s.join := rfl
@[simp] theorem raiseReply_seqReq (st : Status) (info : Info) (s : State) : (raiseReply st info s).seqReq = s.seqReq := rfl
@[simp] theorem raiseReply_replies (st : Status) (info : Info) (s : State) : (raiseReply st info s).replies = s.replies ++ [⟨s.serving, st, info⟩] := rfl
@[simp] theorem raiseReply_serving (st : Status) (info : Info) (s : State) : (raiseReply st info s).serving = s.serving := rfl
@[simp] theorem raiseReply_agenda (st : Status) (info : Info) (s : State) : (raiseReply st info s).agenda = s.agenda := rfl

@[simp] theorem raiseEvent_rxMode (st : Status) (info : Info) (s : State) : (raiseEvent st info s).rxMode = s.rxMode := rfl
@[simp] theorem raiseEvent_hdrBuf (st : Status) (info : Info) (s : State) : (raiseEvent st info s).hdrBuf = s.hdrBuf := rfl
@[simp] theorem raiseEvent_frLen (st : Status) (info : Info) (s : State) : (raiseEvent st info s).frLen = s.frLen := rfl
@[simp] theorem raiseEvent_frCode (st : Status) (info : Info) (s : State) : (raiseEvent st info s).frCode = s.frCode := rfl
@[simp] theorem raiseEvent_bodyBuf (st : Status) (info : Info) (s : State) : (raiseEvent st info s).bodyBuf = s.bodyBuf := rfl
@[simp] theorem raiseEvent_cancel (st : Status) (info : Info) (s : State) : (raiseEvent st info s).cancel = s.cancel := rfl
@[simp] theorem raiseEvent_link (st : Status) (info : Info) (s : State) : (raiseEvent st info s).link = s.link := rfl
@[simp] theorem raiseEvent_crcAcc (st : Status) (info : Info) (s : State) : (raiseEvent st info s).crcAcc = s.crcAcc := rfl
@[simp] theorem raiseEvent_seqStep (st : Status) (info : Info) (s : State) : (raiseEvent st info s).seqStep = s.seqStep := rfl
@[simp] theorem raiseEvent_seqF1 (st : Status) (info : Info) (s : State) : (raiseEvent st info s).seqF1 = s.seqF1 := rfl
@[simp] theorem raiseEvent_seqF2 (st : Status) (info : Info) (s : State) : (raiseEvent st info s).seqF2 = s.seqF2 := rfl
@[simp] theorem raiseEvent_dataModeActive (st : Status) (info : Info) (s : State) : (raiseEvent st info s).dataModeActive = s.dataModeActive := rfl
@[simp] theorem raiseEvent_rxq (st : Status) (info : Info) (s : State) : (raiseEvent st info s).rxq = s.rxq := rfl
@[simp] theorem raiseEvent_txq (st : Status) (info : Info) (s : State) : (raiseEvent st info s).txq = s.txq := rfl
@[simp] theorem raiseEvent_evq (st : Status) (info : Info) (s : State) : (raiseEvent st info s).evq = s.evq ++ [.status st info] := rfl
@[simp] theorem raiseEvent_reqPort (st : Status) (info : Info) (s : State) : (raiseEvent st info s).reqPort = s.reqPort := rfl
@[simp] theorem raiseEvent_join (st : Status) (info : Info) (s : State) : (raiseEvent st info s).join = s.join := rfl
@[simp] theorem raiseEvent_seqReq (st : Status) (info : Info) (s : State) : (raiseEvent st info s).seqReq = s.seqReq := rfl
@[simp] theorem raiseEvent_replies (st : Status) (info : Info) (s : State) : (raiseEvent st info s).replies = s.replies := rfl
@[simp] theorem raiseEvent_serving (st : Status) (info : Info) (s : State) : (raiseEvent st info s).serving = s.serving := rfl
@[simp] theorem raiseEvent_agenda (st : Status) (info : Info) (s : State) : (raiseEvent st info s).agenda = s.agenda := rfl

@[simp] theorem endSequence_rxMode (st : Status) (info : Info) (s : State) : (endSequence st info s).rxMode = s.rxMode := rfl
@[simp] theorem endSequence_hdrBuf (st : Status) (info : Info) (s : State) : (endSequence st info s).hdrBuf = s.hdrBuf := rfl
@[simp] theorem endSequence_frLen (st : Status) (info : Info) (s : State) : (endSequence st info s).frLen = s.frLen := rfl
@[simp] theorem endSequence_frCode (st : Status) (info : Info) (s : State) : (endSequence st info s).frCode = s.frCode := rfl
@[simp] theorem endSequence_bodyBuf (st : Status) (info : Info) (s : State) : (endSequence st info s).bodyBuf = s.bodyBuf := rfl
@[simp] theorem endSequence_cancel (st : Status) (info : Info) (s : State) : (endSequence st info s).cancel = s.cancel := rfl
@[simp] theorem endSequence_link (st : Status) (info : Info) (s : State) : (endSequence st info s).link = s.link := rfl
@[simp] theorem endSequence_crcAcc (st : Status) (info : Info) (s : State) : (endSequence st info s).crcAcc = s.crcAcc := rfl
@[simp] theorem endSequence_seqStep (st : Status) (info : Info) (s : State) : (endSequence st info s).seqStep = .idle := rfl
@[simp] theorem endSequence_seqF1 (st : Status) (info : Info) (s : State) : (endSequence st info s).seqF1 = s.seqF1 := rfl
@[simp] theorem endSequence_seqF2 (st : Status) (info : Info) (s : State) : (endSequence st info s).seqF2 = s.seqF2 := rfl
@[simp] theorem endSequence_dataModeActive (st : Status) (info : Info) (s : State) : (endSequence st info s).dataModeActive = s.dataModeActive := rfl
@[simp] theorem endSequence_rxq (st : Status) (info : Info) (s : State) : (endSequence st info s).rxq = s.rxq := rfl
@[simp] theorem endSequence_txq (st : Status) (info : Info) (s : State) : (endSequence st info s).txq = s.txq := rfl
@[simp] theorem endSequence_evq (st : Status) (info : Info) (s : State) : (endSequence st info s).evq = s.evq := rfl
@[simp] theorem endSequence_reqPort (st : Status) (info : Info) (s : State) : (endSequence st info s).reqPort = s.reqPort := rfl
@[simp] theorem endSequence_join (st : Status) (info : Info) (s : State) : (endSequence st info s).join = s.join := rfl
@[simp] theorem endSequence_seqReq (st : Status) (info : Info) (s : State) : (endSequence st info s).seqReq = none := rfl
@[simp] theorem endSequence_replies (st : Status) (info : Info) (s : State) : (endSequence st info s).replies = s.replies ++ s.seqReq.toList.map (fun r => ⟨r, st, info⟩) := rfl
@[simp] theorem endSequence_serving (st : Status) (info : Info) (s : State) : (endSequence st info s).serving = s.serving := rfl
@[simp] theorem endSequence_agenda (st : Status) (info : Info) (s : State) : (endSequence st info s).agenda = s.agenda := rfl

@[simp] theorem releaseJoin_rxMode (r : Nat) (s : State) : (releaseJoin r s).rxMode = s.rxMode := rfl
@[simp] theorem releaseJoin_hdrBuf (r : Nat) (s : State) : (releaseJoin r s).hdrBuf = s.hdrBuf := rfl
@[simp] theorem releaseJoin_frLen (r : Nat) (s : State) : (releaseJoin r s).frLen = s.frLen := rfl
@[simp] theorem releaseJoin_frCode (r : Nat) (s : State) : (releaseJoin r s).frCode = s.frCode := rfl
@[simp] theorem releaseJoin_bodyBuf (r : Nat) (s : State) : (releaseJoin r s).bodyBuf = s.bodyBuf := rfl
@[simp] theorem releaseJoin_cancel (r : Nat) (s : State) : (releaseJoin r s).cancel = s.cancel := rfl
@[simp] theorem releaseJoin_link (r : Nat) (s : State) : (releaseJoin r s).link = s.link := rfl
@[simp] theorem releaseJoin_crcAcc (r : Nat) (s : State) : (releaseJoin r s).crcAcc = s.crcAcc := rfl
@[simp] theorem releaseJoin_seqStep (r : Nat) (s : State) : (releaseJoin r s).seqStep = s.seqStep := rfl
@[simp] theorem releaseJoin_seqF1 (r : Nat) (s : State) : (releaseJoin r s).seqF1 = s.seqF1 := rfl
@[simp] theorem releaseJoin_seqF2 (r : Nat) (s : State) : (releaseJoin r s).seqF2 = s.seqF2 := rfl
@[simp] theorem releaseJoin_dataModeActive (r : Nat) (s : State) : (releaseJoin r s).dataModeActive = s.dataModeActive := rfl
@[simp] theorem releaseJoin_rxq (r : Nat) (s : State) : (releaseJoin r s).rxq = s.rxq := rfl
@[simp] theorem releaseJoin_txq (r : Nat) (s : State) : (releaseJoin r s).txq = s.txq := rfl
@[simp] theorem releaseJoin_evq (r : Nat) (s : State) : (releaseJoin r s).evq = s.evq := rfl
@[simp] theorem releaseJoin_reqPort (r : Nat) (s : State) : (releaseJoin r s).reqPort = s.reqPort := rfl
@[simp] theorem releaseJoin_join (r : Nat) (s : State) : (releaseJoin r s).join = none := rfl
@[simp] theorem releaseJoin_seqReq (r : Nat) (s : State) : (releaseJoin r s).seqReq = s.seqReq := rfl
@[simp] theorem releaseJoin_replies (r : Nat) (s : State) : (releaseJoin r s).replies = s.replies ++ [⟨r, .ok, .none⟩] := rfl
@[simp] theorem releaseJoin_serving (r : Nat) (s : State) : (releaseJoin r s).serving = s.serving := rfl
@[simp] theorem releaseJoin_agenda (r : Nat) (s : State) : (releaseJoin r s).agenda = s.agenda := rfl

@[simp] theorem acceptHeader_rxMode (hi lo code : Byte) (s : State) : (acceptHeader hi lo code s).rxMode = .body := rfl
@[simp] theorem acceptHeader_hdrBuf (hi lo code : Byte) (s : State) : (acceptHeader hi lo code s).hdrBuf = [] := rfl
@[simp] theorem acceptHeader_frLen (hi lo code : Byte) (s : State) : (acceptHeader hi lo code s).frLen = be16Val hi lo := rfl
@[simp] theorem acceptHeader_frCode (hi lo code : Byte) (s : State) : (acceptHeader hi lo code s).frCode = code := rfl
@[simp] theorem acceptHeader_bodyBuf (hi lo code : Byte) (s : State) : (acceptHeader hi lo code s).bodyBuf = [] := rfl
@[simp] theorem acceptHeader_cancel (hi lo code : Byte) (s : State) : (acceptHeader hi lo code s).cancel = s.cancel := rfl
@[simp] theorem acceptHeader_link (hi lo code : Byte) (s : State) : (acceptHeader hi lo code s).link = s.link := rfl
@[simp] theorem acceptHeader_crcAcc (hi lo code : Byte) (s : State) : (acceptHeader hi lo code s).crcAcc = s.crcAcc := rfl
@[simp] theorem acceptHeader_seqStep (hi lo code : Byte) (s : State) : (acceptHeader hi lo code s).seqStep = s.seqStep := rfl
@[simp] theorem acceptHeader_seqF1 (hi lo code : Byte) (s : State) : (acceptHeader hi lo code s).seqF1 = s.seqF1 := rfl
@[simp] theorem acceptHeader_seqF2 (hi lo code : Byte) (s : State) : (acceptHeader hi lo code s).seqF2 = s.seqF2 := rfl
@[simp] theorem acceptHeader_dataModeActive (hi lo code : Byte) (s : State) : (acceptHeader hi lo code s).dataModeActive = s.dataModeActive := rfl
@[simp] theorem acceptHeader_rxq (hi lo code : Byte) (s : State) : (acceptHeader hi lo code s).rxq = s.rxq := rfl
@[simp] theorem acceptHeader_txq (hi lo code : Byte) (s : State) : (acceptHeader hi lo code s).txq = s.txq := rfl
@[simp] theorem acceptHeader_evq (hi lo code : Byte) (s : State) : (acceptHeader hi lo code s).evq = s.evq := rfl
@[simp] theorem acceptHeader_reqPort (hi lo code : Byte) (s : State) : (acceptHeader hi lo code s).reqPort = s.reqPort := rfl
@[simp] theorem acceptHeader_join (hi lo code : Byte) (s : State) : (acceptHeader hi lo code s).join = s.join := rfl
@[simp] theorem acceptHeader_seqReq (hi lo code : Byte) (s : State) : (acceptHeader hi lo code s).seqReq = s.seqReq := rfl
@[simp] theorem acceptHeader_replies (hi lo code : Byte) (s : State) : (acceptHeader hi lo code s).replies = s.replies := rfl
@[simp] theorem acceptHeader_serving (hi lo code : Byte) (s : State) : (acceptHeader hi lo code s).serving = s.serving := rfl
@[simp] theorem acceptHeader_agenda (hi lo code : Byte) (s : State) : (acceptHeader hi lo code s).agenda = s.agenda := rfl

end Sys2Proof.Machine
end

