-- ==== Sys2Proof/Laws/Ops.lean ====
section
/-! SUPPORT. What each shared operation can do, said once: the lemmas a proof cites instead of unfolding the operation. -/

namespace Sys2Proof.Machine

open Sys2Proof.Config Sys2Proof.Safety

/-! ## Replies and frames -/

/-- A reply is `afterReply`. -/
theorem reply_eq (st : Status) (info : Info) (s : State) : reply st info s = afterReply s st info := rfl

/-- A raise inside a request is a reply and nothing else. -/
theorem raiseReply_eq (st : Status) (info : Info) (s : State) : raiseReply st info s = afterReply s st info := rfl

/-- `be16` of a length: its high byte, then its low byte. -/
theorem be16_ofNat (n : Nat) : be16 (BitVec.ofNat 16 n) = [BitVec.ofNat 8 (n / 256), BitVec.ofNat 8 n] := by
  simp only [be16, List.cons.injEq, and_true]
  constructor
  · apply BitVec.eq_of_toNat_eq
    simp only [BitVec.extractLsb'_toNat, BitVec.toNat_ofNat, Nat.shiftRight_eq_div_pow]
    omega
  · apply BitVec.eq_of_toNat_eq
    simp only [BitVec.extractLsb'_toNat, BitVec.toNat_ofNat, Nat.shiftRight_eq_div_pow]
    omega

/-- `be16_val` puts two bytes together. -/
theorem be16Val_append (h l : Byte) : be16Val h l = h ++ l := by
  rw [be16Val, BitVec.append_def]
  congr 1
  apply BitVec.eq_of_toNat_eq
  have := h.isLt
  simp only [BitVec.toNat_shiftLeft, BitVec.toNat_setWidth, BitVec.toNat_shiftLeftZeroExtend, Nat.shiftLeft_eq]
  omega

/-- The framer's frame is the wire frame. -/
theorem frameEncode_eq (p : List Byte) : frameEncode p = wireFrame p := by
  rw [frameEncode, be16_ofNat, wireFrame]; rfl

/-- A frame is six bytes longer than its payload (R71). -/
theorem wireFrame_length (p : List Byte) : (wireFrame p).length = p.length + 6 := by
  simp [wireFrame]

/-! ## Transmit -/

/-- `SendFrame` with the link up. -/
theorem sendFrame_up (p : List Byte) {s : State} (h : s.link = true) :
    sendFrame p s = (.ok, { s with txq := s.txq ++ wireFrame p, evq := s.evq ++ [.cmdSent p] }) := by
  simp [sendFrame, h, emit, txPut, frameEncode_eq]

/-- `SendFrame` with the link down. -/
theorem sendFrame_down (p : List Byte) {s : State} (h : s.link = false) :
    sendFrame p s = (.transportUnavailable, s) := by
  simp [sendFrame, h]

/-- `Transmit` with the link up. -/
theorem transmit_up (p : List Byte) {s : State} (h : s.link = true) : transmit p s = afterSent s p := by
  rw [transmit, sendFrame_up p h]; rfl

/-- `Transmit` with the link down. -/
theorem transmit_down (p : List Byte) {s : State} (h : s.link = false) :
    transmit p s = afterReply s .transportUnavailable .none := by
  rw [transmit, sendFrame_down p h]; rfl

/-- All `Transmit` can do. -/
theorem transmit_cases (p : List Byte) (s : State) :
    (s.link = true ∧ transmit p s = afterSent s p) ∨
    (s.link = false ∧ transmit p s = afterReply s .transportUnavailable .none) := by
  cases h : s.link
  · exact .inr ⟨rfl, transmit_down p h⟩
  · exact .inl ⟨rfl, transmit_up p h⟩

/-! ## Range checks -/

/-- One check is the range test. -/
theorem u8Fails_iff (v : Int) : u8Fails v = true ↔ v < 0 ∨ 255 < v := by
  simp [u8Fails]

/-- The checks in order report the first operand out of range. -/
theorem checkU8_eq (ops : List (Nat × Int)) : checkU8 ops = firstOutOfU8 ops := by
  induction ops with
  | nil => rfl
  | cons o rest ih =>
    obtain ⟨k, v⟩ := o
    by_cases h : v < 0 ∨ 255 < v
    · simp [checkU8, firstOutOfU8, (u8Fails_iff v).2 h, h]
    · have h' : u8Fails v = false := by
        rw [Bool.eq_false_iff, Ne, u8Fails_iff]; exact h
      simp [checkU8, h', ih, firstOutOfU8, h]

/-- What the common procedure does with an operand out of range. -/
theorem serveCommand_bad {ops : List (Nat × Int)} {k : Nat} (p : List Byte) (s : State)
    (h : firstOutOfU8 ops = some k) :
    serveCommand ops p s = afterReply s .invalidArgument (.operand k) := by
  rw [serveCommand, checkU8_eq, h]; rfl

/-- What the common procedure does with every operand in range. -/
theorem serveCommand_ok {ops : List (Nat × Int)} (p : List Byte) (s : State) (h : firstOutOfU8 ops = none) :
    serveCommand ops p s = transmit p s := by
  rw [serveCommand, checkU8_eq, h]

/-- All the common procedure can do: answer, or send this payload. -/
theorem serveCommand_cases (ops : List (Nat × Int)) (p : List Byte) (s : State) :
    (∃ k, serveCommand ops p s = afterReply s .invalidArgument (.operand k)) ∨
    (s.link = false ∧ serveCommand ops p s = afterReply s .transportUnavailable .none) ∨
    (s.link = true ∧ serveCommand ops p s = afterSent s p) := by
  cases h : firstOutOfU8 ops with
  | some k => exact .inl ⟨k, serveCommand_bad p s h⟩
  | none =>
    rw [serveCommand_ok p s h]
    rcases transmit_cases p s with ⟨hl, ht⟩ | ⟨hl, ht⟩
    · exact .inr (.inr ⟨hl, ht⟩)
    · exact .inr (.inl ⟨hl, ht⟩)

/-- A meaning that is the common procedure over some payload follows the command rule. -/
theorem commandRule_of_serve {i : Instr} {ops : List (Nat × Int)} {payload : State → List Byte}
    (h : ∀ s, exec i s = .next (serveCommand ops (payload s) s)) : CommandRule i ops payload := by
  intro s
  refine ⟨fun hf hl => ?_, fun hf hl => ?_, fun k hk => ?_⟩
  · rw [h, serveCommand_ok _ _ hf, transmit_up _ hl]
  · rw [h, serveCommand_ok _ _ hf, transmit_down _ hl]
  · rw [h, serveCommand_bad _ _ hk]

/-- All a command whose payload is a parameter can do. -/
theorem serveParameter_cases (c : Unencoded) (payload : Option (List Byte)) (s : State) :
    (payload = none ∧ serveParameter c payload s = afterReply s .refused (.command c)) ∨
    ∃ p, payload = some p ∧ serveParameter c payload s = transmit p s := by
  cases payload with
  | none => exact .inl ⟨rfl, rfl⟩
  | some p => exact .inr ⟨p, rfl, rfl⟩

/-! ## The deframer -/

/-- The header check before the fifth byte does nothing. -/
theorem headerCheck_short {s : State} (h : s.hdrBuf.length < 5) : headerCheck s = s := by
  unfold headerCheck
  split
  · rename_i hb; simp [hb] at h
  · rfl

/-- The header check on five bytes. -/
theorem headerCheck_full {s : State} {m0 m1 hi lo code : Byte} (h : s.hdrBuf = [m0, m1, hi, lo, code]) :
    headerCheck s =
      if m0 = 0x5A#8 ∧ m1 = 0xA5#8 then acceptHeader hi lo code s
      else raiseEvent .headerMismatch (.header [m0, m1, hi, lo, code]) { s with hdrBuf := [] } := by
  unfold headerCheck
  rw [h]
  by_cases h0 : m0 = 0x5A#8 <;> by_cases h1 : m1 = 0xA5#8 <;> simp [h0, h1]

/-- All a deframer turn can do: one of its four steps, enabled, or nothing. -/
theorem deframerStep_cases (P : Params) (s : State) :
    (takeHdrEnabled s = true ∧ deframerStep P s = takeHdr s) ∨
    (takeBodyEnabled s = true ∧ deframerStep P s = takeBody P s) ∨
    (dfCancelEnabled s = true ∧ deframerStep P s = dfCancel s) ∨
    (linkDownEnabled s = true ∧ deframerStep P s = dfLinkDown s) ∨
    deframerStep P s = s := by
  unfold deframerStep
  split
  · exact .inl ⟨‹_›, rfl⟩
  split
  · exact .inr (.inl ⟨‹_›, rfl⟩)
  split
  · exact .inr (.inr (.inl ⟨‹_›, rfl⟩))
  split
  · exact .inr (.inr (.inr (.inl ⟨‹_›, rfl⟩)))
  · exact .inr (.inr (.inr (.inr rfl)))

/-- All a read timeout can do. -/
theorem rxTimeout_cases (P : Params) (s : State) :
    (s.rxMode = .hdr ∧ s.cancel = true ∧
      rxTimeout P s = raiseEvent .cancelled .none { s with hdrBuf := [], rxMode := .stopped }) ∨
    (s.rxMode = .hdr ∧ s.cancel = false ∧
      rxTimeout P s = raiseEvent .headerMismatch (.header s.hdrBuf) { s with hdrBuf := [] }) ∨
    (s.rxMode = .body ∧ rxTimeout P s = bodyTimeout s) ∨
    rxTimeout P s = s := by
  unfold rxTimeout
  split
  · split
    · simp
    · rename_i hm
      unfold hdrTimeout
      cases hc : s.cancel
      · simp only [Bool.false_eq_true, if_false]
        split
        · simp
        · cases P.hdrShort <;> simp [hm]
      · simp [hm]
    · rename_i hm; simp [hm]
  · simp

/-! ## The sequencer and the sessions -/

/-- All a middle step of the sequence can do. -/
theorem sequenceStep_cases (k : Nat) (p : List Byte) (w : SeqStep) (s : State) :
    (s.link = true ∧ sequenceStep k p w s =
      { s with txq := s.txq ++ wireFrame p, evq := s.evq ++ [.cmdSent p], seqStep := w }) ∨
    (s.link = false ∧ sequenceStep k p w s = endSequence .transportUnavailable (.seqStep k) s) := by
  by_cases hl : s.link = true
  · exact .inl ⟨hl, by rw [sequenceStep, sendFrame_up p hl]⟩
  · have hl : s.link = false := by simpa using hl
    exact .inr ⟨hl, by rw [sequenceStep, sendFrame_down p hl]⟩

/-- All `DELAY_DONE` can do: nothing, one frame and the next wait, or the end of the sequence with a reply. -/
theorem delayDone_cases (P : Params) (s : State) :
    delayDone P s = s ∨
    (s.seqStep ≠ .idle ∧ s.link = true ∧ ∃ p w, w ≠ SeqStep.idle ∧
      delayDone P s = { s with txq := s.txq ++ wireFrame p, evq := s.evq ++ [.cmdSent p], seqStep := w } ∧
      (p = directPayload2 s.seqF1 s.seqF2 ∨ p = directPayload3 P)) ∨
    (s.seqStep ≠ .idle ∧ ∃ st info, raisedByBlock st = true ∧ delayDone P s = endSequence st info s) := by
  cases hq : s.seqStep <;> simp only [delayDone, hq]
  · exact .inl trivial
  · rcases sequenceStep_cases 2 (directPayload2 s.seqF1 s.seqF2) .wait2 s with ⟨hl, h⟩ | ⟨hl, h⟩
    · exact .inr (.inl ⟨by simp, hl, _, .wait2, by simp, h, .inl rfl⟩)
    · exact .inr (.inr ⟨by simp, _, _, rfl, h⟩)
  · rcases sequenceStep_cases 3 (directPayload3 P) .wait3 s with ⟨hl, h⟩ | ⟨hl, h⟩
    · exact .inr (.inl ⟨by simp, hl, _, .wait3, by simp, h, .inr rfl⟩)
    · exact .inr (.inr ⟨by simp, _, _, rfl, h⟩)
  · exact .inr (.inr ⟨by simp, .ok, _, rfl, rfl⟩)

/-- The presented request found for a requester is its own. -/
theorem presented_requester {r : Nat} {s : State} {q : Request} (h : presented r s = some q) : q.requester = r := by
  have := List.find?_some h
  simpa using this

/-- All a completion turn can do. -/
theorem completeJoin_cases (s : State) :
    (∃ r, s.join = some ⟨r, .opening⟩ ∧ s.rxMode = .stopped ∧ completeJoin s = completeOpen r s) ∨
    (∃ r, s.join = some ⟨r, .closing⟩ ∧ s.rxMode = .stopped ∧ completeJoin s = completeClose r s) ∨
    ((s.join = none ∨ s.rxMode ≠ .stopped) ∧ completeJoin s = s) := by
  unfold completeJoin
  rcases hj : s.join with _ | ⟨r, _ | _⟩ <;> cases hm : s.rxMode <;> simp

/-- All ending a sequence on `OPEN` and `CLOSE` can do. -/
theorem cancelSequence_cases (s : State) :
    (s.seqStep = .idle ∧ cancelSequence s = s) ∨
    (s.seqStep ≠ .idle ∧ cancelSequence s = endSequence .cancelled .none s) := by
  unfold cancelSequence
  cases h : s.seqStep <;> simp

/-- All the accepting step of `OPEN` and `CLOSE` can do. -/
theorem acceptJoin_cases (k : JoinKind) (s : State) :
    (s.join ≠ none ∧ acceptJoin k s = s) ∨
    (s.join = none ∧ s.seqStep = .idle ∧
      acceptJoin k s = { accept s with cancel := true, join := some ⟨s.serving, k⟩ }) ∨
    (s.join = none ∧ s.seqStep ≠ .idle ∧
      acceptJoin k s = { accept s with
        cancel := true, join := some ⟨s.serving, k⟩, seqStep := .idle, seqReq := none
        replies := s.replies ++ s.seqReq.toList.map (fun r => ⟨r, .cancelled, .none⟩) }) := by
  unfold acceptJoin
  split
  · rename_i hj; exact .inl ⟨by simp [hj], rfl⟩
  · rename_i hj
    rcases cancelSequence_cases { accept s with cancel := true } with ⟨h, e⟩ | ⟨h, e⟩ <;> rw [e]
    · exact .inr (.inl ⟨hj, h, rfl⟩)
    · exact .inr (.inr ⟨hj, h, rfl⟩)

/-- All presenting a request can do. -/
theorem presentRequest_cases (r : Nat) (i : Instr) (s : State) :
    presentRequest r i s = s ∨
    (r ∉ outstanding s ∧ presentRequest r i s = { s with reqPort := s.reqPort ++ [⟨r, i⟩] }) := by
  unfold presentRequest
  split
  · exact .inl rfl
  · rename_i h; exact .inr ⟨by simpa using h, rfl⟩

/-- Taking the first element of a key out of a list takes that key out of the keys. -/
theorem keys_perm_eraseP {α : Type} (f : α → Nat) (l : List α) (r : Nat) (x : α)
    (h : l.find? (fun a => f a == r) = some x) :
    List.Perm (l.map f) (r :: (l.eraseP (fun a => f a == r)).map f) := by
  induction l with
  | nil => simp at h
  | cons a l ih =>
    by_cases ha : f a = r
    · simp [ha]
    · have hb : (f a == r) = false := by simpa using ha
      simp only [List.find?_cons, hb, List.eraseP_cons] at h ⊢
      simp only [cond_false, List.map_cons]
      exact ((ih h).cons _).trans (.swap _ _ _)

/-- The requesters at the port are the one who presents the found request and those left when it leaves. -/
theorem presented_perm {r : Nat} {s : State} {q : Request} (h : presented r s = some q) :
    List.Perm (s.reqPort.map (·.requester))
      (r :: (s.reqPort.eraseP (fun q => q.requester == r)).map (·.requester)) :=
  keys_perm_eraseP Request.requester s.reqPort r q h

/-- A deframer turn that takes a header byte. -/
theorem deframerStep_takeHdr (P : Params) {s : State} {b : Byte} {rest : List Byte} (hm : s.rxMode = .hdr)
    (hl : s.link = true) (hq : s.rxq = b :: rest) (hn : s.hdrBuf.length < 5) (hc : s.hdrBuf ≠ [] ∨ s.cancel = false) :
    deframerStep P s = headerCheck { s with rxq := rest, hdrBuf := s.hdrBuf ++ [b] } := by
  have h : takeHdrEnabled s = true := by simp [takeHdrEnabled, hm, rxAvail, hl, hq, hn]; exact hc
  unfold deframerStep
  rw [if_pos h]
  unfold takeHdr
  rw [hq]

/-- A deframer turn that takes a body byte. -/
theorem deframerStep_takeBody (P : Params) {s : State} {b : Byte} {rest : List Byte} (hm : s.rxMode = .body)
    (hl : s.link = true) (hq : s.rxq = b :: rest) (hn : s.bodyBuf.length < s.frLen.toNat + 1) :
    deframerStep P s =
      if s.bodyBuf.length = s.frLen.toNat then deliver P { s with rxq := rest, bodyBuf := s.bodyBuf ++ [b] }
      else { s with rxq := rest, bodyBuf := s.bodyBuf ++ [b] } := by
  have h1 : takeHdrEnabled s = false := by simp [takeHdrEnabled, hm]
  have h2 : takeBodyEnabled s = true := by simp [takeBodyEnabled, hm, rxAvail, hl, hq, hn]
  simp [deframerStep, h1, h2, takeBody, hq]

end Sys2Proof.Machine
end

