-- ==== Sys2Proof/Laws/Exec.lean ====
section
/-! SUPPORT. All an accepting step can do, said once, and the bounds of the payloads. -/

namespace Sys2Proof.Machine

open Sys2Proof.Config Sys2Proof.Safety

/-- The payload of step 1 fits LEN. -/
theorem directPayload1_length (P : Params) : (directPayload1 P).length ≤ 65535 := by
  simp [directPayload1, Params.directArgs1]; omega

/-- The payload of step 3 fits LEN. -/
theorem directPayload3_length (P : Params) : (directPayload3 P).length ≤ 65535 := by
  simp [directPayload3, Params.directArgs3]; omega

/-- A given `P_DATA_FW_PAYLOAD` has 1 to 65535 bytes. -/
theorem dataFwPayload_length {P : Params} {p : List Byte} (h : P.dataFwPayload = some p) :
    1 ≤ p.length ∧ p.length ≤ 65535 := by
  unfold Params.dataFwPayload at h
  split at h
  · cases h
  · cases h; simp

/-- A given `P_AUX_PREFIX` leaves room for one byte. -/
theorem auxPrefix_length {P : Params} {p : List Byte} (h : P.auxPrefix = some p) : p.length ≤ 65534 := by
  unfold Params.auxPrefix at h
  split at h
  · cases h
  · cases h; simp

/-- What an accepting step leaves: the cases of `exec_cases`. -/
def AfterExec (i : Instr) (s t : State) : Prop :=
  (t = s ∧ s.seqStep ≠ .idle ∧ ∃ f1 f2, i = .directEnable f1 f2) ∨
  (∃ st info, raisedByBlock st = true ∧ t = afterReply s st info) ∨
  (s.link = true ∧ ∃ p, p.length ≤ 65535 ∧ t = afterSent s p) ∨
  (∃ w, t = { afterReply s .ok .none with crcAcc := w } ∧ (i = .crcInit ∨ ∃ b, i = .crcByte b)) ∨
  (s.seqStep = .idle ∧ s.link = true ∧ ∃ f1 f2, i = .directEnable f1 f2 ∧
    t = { accept s with
      txq := s.txq ++ wireFrame (directPayload1 Config.params)
      evq := s.evq ++ [.cmdSent (directPayload1 Config.params)]
      seqF1 := f1, seqF2 := f2, seqStep := .wait1, seqReq := some s.serving }) ∨
  (i = .openSession ∧ t = acceptJoin .opening s) ∨
  (i = .closeSession ∧ t = acceptJoin .closing s)

/-- A request served by the common procedure, with a payload that fits LEN. -/
theorem afterExec_serveCommand (i : Instr) (ops : List (Nat × Int)) {p : List Byte} (s : State)
    (hp : p.length ≤ 65535) : AfterExec i s (serveCommand ops p s) := by
  rcases serveCommand_cases ops p s with ⟨k, h⟩ | ⟨_, h⟩ | ⟨hl, h⟩
  · exact .inr (.inl ⟨_, _, rfl, h⟩)
  · exact .inr (.inl ⟨_, _, rfl, h⟩)
  · exact .inr (.inr (.inl ⟨hl, p, hp, h⟩))

/-- A request that transmits a payload that fits LEN. -/
theorem afterExec_transmit (i : Instr) {p : List Byte} (s : State) (hp : p.length ≤ 65535) :
    AfterExec i s (transmit p s) :=
  afterExec_serveCommand i [] s hp

/-- A request whose payload is a parameter that fits LEN. -/
theorem afterExec_serveParameter (i : Instr) (c : Unencoded) {payload : Option (List Byte)} (s : State)
    (hp : ∀ p, payload = some p → p.length ≤ 65535) : AfterExec i s (serveParameter c payload s) := by
  rcases serveParameter_cases c payload s with ⟨_, h⟩ | ⟨p, hq, h⟩
  · exact .inr (.inl ⟨_, _, rfl, h⟩)
  · rw [h]; exact afterExec_transmit i s (hp p hq)

/-- A request that is answered. -/
theorem afterExec_reply (i : Instr) (st : Status) (info : Info) (s : State) (h : raisedByBlock st = true) :
    AfterExec i s (reply st info s) :=
  .inr (.inl ⟨st, info, h, rfl⟩)

/-- All `DIRECT_ENABLE` can do. -/
theorem afterExec_directEnable (f1 f2 : Bool) (s : State) :
    AfterExec (.directEnable f1 f2) s (directEnable Config.params f1 f2 s) := by
  unfold directEnable
  split
  · rename_i hq
    by_cases hl : s.link = true
    · rw [sendFrame_up _ hl]
      exact .inr (.inr (.inr (.inr (.inl ⟨hq, hl, f1, f2, rfl, rfl⟩))))
    · have hl : s.link = false := by simpa using hl
      rw [sendFrame_down _ hl]
      exact .inr (.inl ⟨_, _, rfl, rfl⟩)
  · rename_i hq
    exact .inl ⟨rfl, hq, f1, f2, rfl⟩

/-- Every accepting step answers a next state, and this is all it can leave. -/
theorem exec_cases (i : Instr) (s : State) : ∃ t, exec i s = .next t ∧ AfterExec i s t := by
  cases i with
  | powerUp a b c l => exact ⟨_, rfl, afterExec_serveCommand _ _ s (by simp)⟩
  | powerDown p => exact ⟨_, rfl, afterExec_serveCommand _ _ s (by simp)⟩
  | setLineLevel g => exact ⟨_, rfl, afterExec_serveCommand _ _ s (by simp)⟩
  | changeChannel sid ch d pt => exact ⟨_, rfl, afterExec_serveCommand _ _ s (by simp)⟩
  | cancelChannel ch d => exact ⟨_, rfl, afterExec_serveCommand _ _ s (by simp)⟩
  | mute m => exact ⟨_, rfl, afterExec_serveCommand _ _ s (by simp)⟩
  | extInfo ch => exact ⟨_, rfl, afterExec_serveCommand _ _ s (by simp)⟩
  | channelInfo sid ch pt => exact ⟨_, rfl, afterExec_serveCommand _ _ s (by simp)⟩
  | radioId => exact ⟨_, rfl, afterExec_serveCommand _ _ s (by simp)⟩
  | signalMonitor t => exact ⟨_, rfl, afterExec_serveCommand _ _ s (by simp)⟩
  | signalInfo => exact ⟨_, rfl, afterExec_serveCommand _ _ s (by simp)⟩
  | clockMonitor t => exact ⟨_, rfl, afterExec_serveCommand _ _ s (by simp)⟩
  | dataSelect sid f1 f2 => exact ⟨_, rfl, afterExec_serveCommand _ _ s (by simp)⟩
  | dataPing => exact ⟨_, rfl, afterExec_serveCommand _ _ s (by simp)⟩
  | channelMonitor ch sv ty inf ext ov => exact ⟨_, rfl, afterExec_serveCommand _ _ s (by simp)⟩
  | diagMonitor t => exact ⟨_, rfl, afterExec_serveCommand _ _ s (by simp)⟩
  | fwVersion => exact ⟨_, rfl, afterExec_serveCommand _ _ s (by simp)⟩
  | directListen => exact ⟨_, rfl, afterExec_serveCommand _ _ s (directPayload1_length _)⟩
  | directPower f1 f2 => exact ⟨_, rfl, afterExec_serveCommand _ _ s (by simp [directPayload2])⟩
  | directUnmute => exact ⟨_, rfl, afterExec_serveCommand _ _ s (directPayload3_length _)⟩
  | dataFwVersion =>
    exact ⟨_, rfl, afterExec_serveParameter _ _ s (fun p h => (dataFwPayload_length h).2)⟩
  | auxToggle t =>
    refine ⟨_, rfl, afterExec_serveParameter _ _ s (fun p h => ?_)⟩
    obtain ⟨q, hq, rfl⟩ := Option.map_eq_some_iff.1 h
    have := auxPrefix_length hq
    simp; omega
  | sendRaw p =>
    refine ⟨_, rfl, ?_⟩
    split
    · exact afterExec_reply _ _ _ s rfl
    · exact afterExec_transmit _ s (by omega)
  | crcInit => exact ⟨_, rfl, .inr (.inr (.inr (.inl ⟨_, rfl, .inl rfl⟩)))⟩
  | crcByte b =>
    refine ⟨_, rfl, ?_⟩
    split
    · exact afterExec_reply _ _ _ s rfl
    · exact .inr (.inr (.inr (.inl ⟨_, rfl, .inr ⟨b, rfl⟩⟩)))
  | crcRead => exact ⟨_, rfl, afterExec_reply _ _ _ s rfl⟩
  | crcCompute data => exact ⟨_, rfl, afterExec_reply _ _ _ s rfl⟩
  | crcValidate data ck =>
    refine ⟨_, rfl, ?_⟩
    split
    · exact afterExec_reply _ _ _ s rfl
    · dsimp only
      split
      · exact afterExec_reply _ _ _ s rfl
      · exact afterExec_reply _ _ _ s rfl
  | directEnable f1 f2 => exact ⟨_, rfl, afterExec_directEnable f1 f2 s⟩
  | openSession => exact ⟨_, rfl, .inr (.inr (.inr (.inr (.inr (.inl ⟨rfl, rfl⟩)))))⟩
  | closeSession => exact ⟨_, rfl, .inr (.inr (.inr (.inr (.inr (.inr ⟨rfl, rfl⟩)))))⟩

end Sys2Proof.Machine
end

