-- ==== Sys2Proof/Laws/PerInstr.lean ====
section
/-! SUPPORT. One lemma per instruction: the payload it encodes to, where it has one, fits the LEN field and is not empty (30_encoding.md R71). -/

namespace Sys2Proof.Laws.PayloadShape

open Sys2Proof Sys2Proof.Config Sys2Proof.Machine

/-- R71: a catalog command's payload has 1 to 65535 bytes, whatever the parameters and the data mode. The host
operations have no payload of their own (R95). -/
def Statement (i : Instr) : Prop :=
  ∀ (P : Params) (dataMode : Bool) (p : List Byte), encode P dataMode i = some p → 1 ≤ p.length ∧ p.length ≤ 65535

theorem powerUp (chLabelLen catLabelLen titleLabelLen : Int) (lossExpected : Bool) : Statement (.powerUp chLabelLen catLabelLen titleLabelLen lossExpected) := by
  intro _ _ p h
  cases h
  simp

theorem powerDown (powerSave : Bool) : Statement (.powerDown powerSave) := by
  intro _ _ p h
  cases h
  simp

theorem setLineLevel (gain : Int) : Statement (.setLineLevel gain) := by
  intro _ _ p h
  cases h
  simp

theorem changeChannel (bySid : Bool) (channel : Int) (dataFlag : Bool) (progType : Int) : Statement (.changeChannel bySid channel dataFlag progType) := by
  intro _ _ p h
  cases h
  simp

theorem cancelChannel (channel : Int) (dataFlag : Bool) : Statement (.cancelChannel channel dataFlag) := by
  intro _ _ p h
  cases h
  simp

theorem mute (on : Bool) : Statement (.mute on) := by
  intro _ _ p h
  cases h
  simp

theorem extInfo (channel : Int) : Statement (.extInfo channel) := by
  intro _ _ p h
  cases h
  simp

theorem channelInfo (bySid : Bool) (channel progType : Int) : Statement (.channelInfo bySid channel progType) := by
  intro _ _ p h
  cases h
  simp

theorem radioId : Statement (.radioId) := by
  intro _ _ p h
  cases h
  simp

theorem signalMonitor (toggle : Bool) : Statement (.signalMonitor toggle) := by
  intro _ _ p h
  cases h
  simp

theorem signalInfo : Statement (.signalInfo) := by
  intro _ _ p h
  cases h
  simp

theorem clockMonitor (toggle : Bool) : Statement (.clockMonitor toggle) := by
  intro _ _ p h
  cases h
  simp

theorem dataSelect (sid : Int) (flag1 flag2 : Bool) : Statement (.dataSelect sid flag1 flag2) := by
  intro _ _ p h
  cases h
  simp

theorem dataPing : Statement (.dataPing) := by
  intro _ _ p h
  cases h
  simp

theorem channelMonitor (channel : Int) (servMon typeMon infoMon extMon override : Bool) : Statement (.channelMonitor channel servMon typeMon infoMon extMon override) := by
  intro _ _ p h
  cases h
  simp

theorem diagMonitor (toggle : Bool) : Statement (.diagMonitor toggle) := by
  intro _ _ p h
  cases h
  simp

theorem fwVersion : Statement (.fwVersion) := by
  intro _ _ p h
  cases h
  simp

theorem directListen : Statement (.directListen) := by
  intro P _ p h
  cases h
  exact ⟨by simp, directPayload1_length P⟩

theorem directPower (flag1 flag2 : Bool) : Statement (.directPower flag1 flag2) := by
  intro _ _ p h
  cases h
  simp

theorem directUnmute : Statement (.directUnmute) := by
  intro P _ p h
  cases h
  exact ⟨by simp, directPayload3_length P⟩

theorem dataFwVersion : Statement (.dataFwVersion) := fun _ _ _ h => dataFwPayload_length h

theorem auxToggle (toggle : Bool) : Statement (.auxToggle toggle) := by
  intro P _ p h
  obtain ⟨q, hq, rfl⟩ := Option.map_eq_some_iff.1 h
  have := auxPrefix_length hq
  simp only [List.length_append, List.length_cons, List.length_nil]
  omega

theorem sendRaw (payload : List Byte) : Statement (.sendRaw payload) := fun _ _ _ h => nomatch h

theorem crcInit : Statement (.crcInit) := fun _ _ _ h => nomatch h

theorem crcByte (b : Int) : Statement (.crcByte b) := fun _ _ _ h => nomatch h

theorem crcRead : Statement (.crcRead) := fun _ _ _ h => nomatch h

theorem crcCompute (data : List Byte) : Statement (.crcCompute data) := fun _ _ _ h => nomatch h

theorem crcValidate (data : List Byte) (checksum : Int) : Statement (.crcValidate data checksum) := fun _ _ _ h => nomatch h

theorem directEnable (flag1 flag2 : Bool) : Statement (.directEnable flag1 flag2) := fun _ _ _ h => nomatch h

theorem openSession : Statement (.openSession) := fun _ _ _ h => nomatch h

theorem closeSession : Statement (.closeSession) := fun _ _ _ h => nomatch h

end Sys2Proof.Laws.PayloadShape
end

