-- ==== Sys2Proof/Laws/Runs.lean ====
section
/-! SUPPORT. Steps and runs: one step at a time, turn by turn. -/

namespace Sys2Proof.Safety

open Sys2Proof.Machine

/-- No step leaves the state. -/
theorem runSteps_zero (s : State) : runSteps 0 s = .next s := rfl

/-- A run whose first step answers `t` goes on from `t`. -/
theorem runSteps_succ {s t : State} (n : Nat) (h : step s = .next t) : runSteps (n + 1) s = runSteps n t := by
  have h' : Sys2Proof.core.step s = .next t := h
  simp only [runSteps, Host.Core.run, h']
  rfl

/-- A run in two parts. -/
theorem runSteps_add {s t : State} (m n : Nat) (h : runSteps m s = .next t) :
    runSteps (m + n) s = runSteps n t := by
  induction m generalizing s with
  | zero => cases h; rw [Nat.zero_add]
  | succ m ih =>
    cases hs : step s with
    | next u =>
      rw [runSteps_succ m hs] at h
      rw [Nat.succ_add, runSteps_succ _ hs]
      exact ih h
    | fault r => exact nomatch r
    | refused r =>
      have h' : Sys2Proof.core.step s = .refused r := hs
      simp only [runSteps, Host.Core.run, h'] at h
      cases h

/-- A step with a turn of the deframer next. -/
theorem step_deframer {s : State} {rest : List Turn} (h : s.agenda = .deframer :: rest) :
    step s = .next (deframerStep Config.params { s with agenda := rest }) := by
  simp only [step, stepAgenda, h, runTurn]

/-- A step with a read timeout next. -/
theorem step_rxTimeout {s : State} {rest : List Turn} (h : s.agenda = .rxTimeout :: rest) :
    step s = .next (rxTimeout Config.params { s with agenda := rest }) := by
  simp only [step, stepAgenda, h, runTurn]

/-- A step with a delay's end next. -/
theorem step_delayDone {s : State} {rest : List Turn} (h : s.agenda = .delayDone :: rest) :
    step s = .next (delayDone Config.params { s with agenda := rest }) := by
  simp only [step, stepAgenda, h, runTurn]

end Sys2Proof.Safety
end

