-- ==== Sys2Proof/Laws/Turns.lean ====
section
/-! SUPPORT. What a turn of the deframer, of the read timeout and of the agenda leaves alone, and the cases of a step. -/

namespace Sys2Proof.Safety

open Sys2Proof.Machine Sys2Proof.Config

/-- `EVQ` as it was, or with one event of the block at its end. -/
def EvqGrows (s t : State) : Prop :=
  t.evq = s.evq ∨ ∃ e, eventOfBlock e = true ∧ t.evq = s.evq ++ [e]

/-- `t` is `s` but for the deframer's registers, `RXQ` and `EVQ`. -/
def DeframerFrame (s t : State) : Prop :=
  { t with
    rxMode := s.rxMode, hdrBuf := s.hdrBuf, frLen := s.frLen, frCode := s.frCode, bodyBuf := s.bodyBuf
    rxq := s.rxq, evq := s.evq } = s

/-- What `DF_TAKE_HDR` leaves. -/
theorem takeHdr_frame (s : State) :
    DeframerFrame s (takeHdr s) ∧ (takeHdr s).rxq = s.rxq.tail ∧ EvqGrows s (takeHdr s) := by
  unfold takeHdr
  split
  · rename_i h; exact ⟨rfl, by rw [h]; rfl, .inl rfl⟩
  · rename_i b rest h
    rw [h]
    unfold headerCheck
    split
    · split
      · exact ⟨rfl, rfl, .inr ⟨_, rfl, rfl⟩⟩
      · exact ⟨rfl, rfl, .inl rfl⟩
    · exact ⟨rfl, rfl, .inl rfl⟩

/-- What delivery leaves. -/
theorem deliver_frame (P : Params) (s : State) :
    DeframerFrame s (deliver P s) ∧ (deliver P s).rxq = s.rxq ∧ EvqGrows s (deliver P s) := by
  unfold deliver
  split
  · unfold deliverLen0
    cases P.len0 <;> exact ⟨rfl, rfl, .inr ⟨_, rfl, rfl⟩⟩
  · exact ⟨rfl, rfl, .inr ⟨_, rfl, rfl⟩⟩

/-- What `DF_TAKE_BODY` leaves. -/
theorem takeBody_frame (P : Params) (s : State) :
    DeframerFrame s (takeBody P s) ∧ (takeBody P s).rxq = s.rxq.tail ∧ EvqGrows s (takeBody P s) := by
  unfold takeBody
  split
  · rename_i h; exact ⟨rfl, by rw [h]; rfl, .inl rfl⟩
  · rename_i b rest h
    rw [h]
    dsimp only
    split
    · obtain ⟨h1, h2, h3⟩ := deliver_frame P { s with rxq := rest, bodyBuf := s.bodyBuf ++ [b] }
      refine ⟨?_, h2, h3⟩
      have := congrArg (fun u : State => { u with rxq := s.rxq, bodyBuf := s.bodyBuf }) h1
      exact this
    · exact ⟨rfl, rfl, .inl rfl⟩

/-- What a deframer turn leaves. -/
theorem deframerStep_frame (P : Params) (s : State) :
    DeframerFrame s (deframerStep P s) ∧
    ((deframerStep P s).rxq = s.rxq ∨ (deframerStep P s).rxq = s.rxq.tail) ∧ EvqGrows s (deframerStep P s) := by
  rcases deframerStep_cases P s with ⟨_, h⟩ | ⟨_, h⟩ | ⟨_, h⟩ | ⟨_, h⟩ | h <;> rw [h]
  · exact ⟨(takeHdr_frame s).1, .inr (takeHdr_frame s).2.1, (takeHdr_frame s).2.2⟩
  · exact ⟨(takeBody_frame P s).1, .inr (takeBody_frame P s).2.1, (takeBody_frame P s).2.2⟩
  · exact ⟨rfl, .inl rfl, .inr ⟨_, rfl, rfl⟩⟩
  · exact ⟨rfl, .inl rfl, .inr ⟨_, rfl, rfl⟩⟩
  · exact ⟨rfl, .inl rfl, .inl rfl⟩

/-- What a read timeout leaves. -/
theorem rxTimeout_frame (P : Params) (s : State) :
    DeframerFrame s (rxTimeout P s) ∧ (rxTimeout P s).rxq = s.rxq ∧ EvqGrows s (rxTimeout P s) := by
  rcases rxTimeout_cases P s with ⟨_, _, h⟩ | ⟨_, _, h⟩ | ⟨_, h⟩ | h <;> rw [h]
  · exact ⟨rfl, rfl, .inr ⟨_, rfl, rfl⟩⟩
  · exact ⟨rfl, rfl, .inr ⟨_, rfl, rfl⟩⟩
  · exact ⟨rfl, rfl, .inr ⟨_, rfl, rfl⟩⟩
  · exact ⟨rfl, rfl, .inl rfl⟩

/-- What one turn leaves: the cases of a step whose agenda begins with it. `s` is the state with the turn taken off. -/
def AfterTurn (turn : Turn) (s t : State) : Prop :=
  match turn with
  | .present r i => t = presentRequest r i s
  | .serve r =>
    (presented r s = none ∧ t = s) ∨
    ∃ q, presented r s = some q ∧ AfterExec q.op { s with serving := r } t
  | .complete => t = completeJoin s
  | .deframer => t = deframerStep Config.params s
  | .rxByte b => t = { s with rxq := s.rxq ++ [b] }
  | .rxTimeout => t = rxTimeout Config.params s
  | .delayDone => t = delayDone Config.params s
  | .setLink up => t = { s with link := up }
  | .setDataMode on => t = { s with dataModeActive := on }
  | .takeTx => t = { s with txq := s.txq.tail }
  | .takeEv => t = { s with evq := s.evq.tail }

/-- All a turn can do. -/
theorem runTurn_cases (turn : Turn) (s t : State) (h : runTurn turn s = .next t) : AfterTurn turn s t := by
  cases turn <;> simp only [runTurn, Host.Outcome.next.injEq] at h <;> simp only [AfterTurn] <;>
    try exact h.symm
  rename_i r
  unfold serveTurn at h
  split at h
  · rename_i hp; cases h; exact .inl ⟨hp, rfl⟩
  · rename_i q hp
    obtain ⟨t', ht, hc⟩ := exec_cases q.op { s with serving := r }
    rw [ht] at h; cases h
    exact .inr ⟨q, hp, hc⟩

/-- All a step can do: nothing with no turn left, else its first turn. -/
theorem step_cases {s t : State} (h : step s = .next t) :
    (s.agenda = [] ∧ t = s) ∨
    ∃ turn rest, s.agenda = turn :: rest ∧ AfterTurn turn { s with agenda := rest } t := by
  unfold step stepAgenda at h
  split at h
  · rename_i ha; cases h; exact .inl ⟨ha, rfl⟩
  · rename_i turn rest ha; exact .inr ⟨turn, rest, ha, runTurn_cases turn _ t h⟩

end Sys2Proof.Safety
end

