-- ==== Sys2Proof/Machine/Pseudo.lean ====
section
/-! DEFINITION. The pseudo-operations and their expansions (30_encoding.md R97, 42_command_encoder.md R187). -/

namespace Sys2Proof.Machine

/-- The pseudo-operations of R97; an operand in brackets there is an `Option` here. `DIRECT_ENABLE`, its last row, is a
request of its own (`Instr.directEnable`). -/
inductive Pseudo where
  | tuneNum (ch : Int) (data : Option Bool) (pt : Option Int)
  | tuneSid (sid : Int) (data : Option Bool) (pt : Option Int)
  | infoNum (ch : Int) (pt : Option Int)
  | infoSid (sid : Int) (pt : Option Int)
  | muteOn
  | muteOff
  | signalMonitorOn
  | signalMonitorOff
  | clockMonitorOn
  | clockMonitorOff
  | diagMonitorOn
  | diagMonitorOff
  deriving DecidableEq, Repr

/-- The request a pseudo-operation stands for; `data` and `pt` default to 0 (R97, R187). -/
def expand : Pseudo → Instr
  | .tuneNum ch d pt => .changeChannel false ch (d.getD false) (pt.getD 0)
  | .tuneSid sid d pt => .changeChannel true sid (d.getD false) (pt.getD 0)
  | .infoNum ch pt => .channelInfo false ch (pt.getD 0)
  | .infoSid sid pt => .channelInfo true sid (pt.getD 0)
  | .muteOn => .mute true
  | .muteOff => .mute false
  | .signalMonitorOn => .signalMonitor true
  | .signalMonitorOff => .signalMonitor false
  | .clockMonitorOn => .clockMonitor true
  | .clockMonitorOff => .clockMonitor false
  | .diagMonitorOn => .diagMonitor true
  | .diagMonitorOff => .diagMonitor false

end Sys2Proof.Machine
end

