-- ==== Sys2Proof/Machine/Assembler.lean ====
section
/-! DEFINITION. The assembler syntax of program listings (30_encoding.md R96): a line's text to a request or an environment input. -/

namespace Sys2Proof.Machine

/-- One line of a listing (R96). -/
inductive Line where
  /-- nothing but white space or a comment -/
  | blank
  /-- `MNEMONIC op1, op2, ...` -/
  | request (i : Instr)
  /-- `RX [bytes]` -/
  | rx (bytes : List Byte)
  /-- `TIMEOUT` -/
  | timeout
  /-- `DELAY` -/
  | delay
  /-- `LINK 0|1` -/
  | link (up : Bool)
  deriving DecidableEq, Repr

/-- White space of a line: blanks and tabs. -/
def isBlank (c : Char) : Bool := c == ' ' || c == '\t'

/-- The text without white space at its two ends. -/
def trimText (t : List Char) : List Char := ((t.dropWhile isBlank).reverse.dropWhile isBlank).reverse

/-- The pieces between the separators. -/
def splitText (sep : Char → Bool) : List Char → List (List Char)
  | [] => [[]]
  | c :: rest =>
    match splitText sep rest with
    | [] => [[c]]
    | w :: ws => if sep c then [] :: w :: ws else (c :: w) :: ws

/-- The value of a digit, in hexadecimal. -/
def digitValue (c : Char) : Option Nat :=
  if '0' ≤ c ∧ c ≤ '9' then some (c.toNat - 48)
  else if 'a' ≤ c ∧ c ≤ 'f' then some (c.toNat - 87)
  else if 'A' ≤ c ∧ c ≤ 'F' then some (c.toNat - 55)
  else none

/-- The digits of a number in a base, after the value `acc` of those before them. -/
def digitsFrom (base acc : Nat) : List Char → Option Nat
  | [] => some acc
  | c :: rest =>
    match digitValue c with
    | some d => if d < base then digitsFrom base (acc * base + d) rest else none
    | none => none

/-- A number of at least one digit. -/
def parseNat (base : Nat) (t : List Char) : Option Nat :=
  if t.isEmpty then none else digitsFrom base 0 t

/-- A `u8` or `int` operand (R96): decimal, `0x` hexadecimal, or negative decimal (for both kinds, log 18). -/
def parseInt : List Char → Option Int
  | '-' :: t => (parseNat 10 t).map (fun n => -(Int.ofNat n))
  | '0' :: 'x' :: t => (parseNat 16 t).map Int.ofNat
  | t => (parseNat 10 t).map Int.ofNat

/-- A `bool` operand (R96): `0`, `1`, `false` or `true`. -/
def parseBool (t : List Char) : Option Bool :=
  match String.ofList t with
  | "0" => some false
  | "1" => some true
  | "false" => some false
  | "true" => some true
  | _ => none

/-- One byte of a byte string: two hexadecimal digits. -/
def parseByte (t : List Char) : Option Byte :=
  if t.length = 2 then (parseNat 16 t).map (BitVec.ofNat 8) else none

/-- A byte-string operand (R96): hex bytes in brackets. -/
def parseBytes : List Char → Option (List Byte)
  | '[' :: t =>
    match t.reverse with
    | ']' :: inner => ((splitText isBlank inner.reverse).filter (fun w => !w.isEmpty)).mapM parseByte
    | _ => none
  | _ => none

/-- An optional operand of a pseudo-operation. -/
def parseOptional {α : Type} (parse : List Char → Option α) : List (List Char) → Option (Option α)
  | [] => some none
  | [t] => (parse t).map some
  | _ => none

/-- The request of a mnemonic with its operands in the order of R78's operand column. -/
def parseRequest (m : String) (ops : List (List Char)) : Option Instr :=
  match m with
  | "POWER_UP" => match ops with
    | [a, b, c, l] => return .powerUp (← parseInt a) (← parseInt b) (← parseInt c) (← parseBool l)
    | _ => none
  | "POWER_DOWN" => match ops with | [a] => return .powerDown (← parseBool a) | _ => none
  | "SET_LINE_LEVEL" => match ops with | [g] => return .setLineLevel (← parseInt g) | _ => none
  | "CHANGE_CHANNEL" => match ops with
    | [a, c, d, p] => return .changeChannel (← parseBool a) (← parseInt c) (← parseBool d) (← parseInt p)
    | _ => none
  | "CANCEL_CHANNEL" => match ops with | [c, d] => return .cancelChannel (← parseInt c) (← parseBool d) | _ => none
  | "MUTE" => match ops with | [a] => return .mute (← parseBool a) | _ => none
  | "EXT_INFO" => match ops with | [c] => return .extInfo (← parseInt c) | _ => none
  | "CHANNEL_INFO" => match ops with
    | [a, c, p] => return .channelInfo (← parseBool a) (← parseInt c) (← parseInt p)
    | _ => none
  | "RADIO_ID" => match ops with | [] => some .radioId | _ => none
  | "SIGNAL_MONITOR" => match ops with | [a] => return .signalMonitor (← parseBool a) | _ => none
  | "SIGNAL_INFO" => match ops with | [] => some .signalInfo | _ => none
  | "CLOCK_MONITOR" => match ops with | [a] => return .clockMonitor (← parseBool a) | _ => none
  | "DATA_SELECT" => match ops with
    | [c, a, b] => return .dataSelect (← parseInt c) (← parseBool a) (← parseBool b)
    | _ => none
  | "DATA_PING" => match ops with | [] => some .dataPing | _ => none
  | "CHANNEL_MONITOR" => match ops with
    | [c, a, b, d, e, o] =>
      return .channelMonitor (← parseInt c) (← parseBool a) (← parseBool b) (← parseBool d) (← parseBool e) (← parseBool o)
    | _ => none
  | "DIAG_MONITOR" => match ops with | [a] => return .diagMonitor (← parseBool a) | _ => none
  | "FW_VERSION" => match ops with | [] => some .fwVersion | _ => none
  | "DIRECT_LISTEN" => match ops with | [] => some .directListen | _ => none
  | "DIRECT_POWER" => match ops with | [a, b] => return .directPower (← parseBool a) (← parseBool b) | _ => none
  | "DIRECT_UNMUTE" => match ops with | [] => some .directUnmute | _ => none
  | "DATA_FW_VERSION" => match ops with | [] => some .dataFwVersion | _ => none
  | "AUX_TOGGLE" => match ops with | [a] => return .auxToggle (← parseBool a) | _ => none
  | "SEND_RAW" => match ops with | [p] => return .sendRaw (← parseBytes p) | _ => none
  | "CRC_INIT" => match ops with | [] => some .crcInit | _ => none
  | "CRC_BYTE" => match ops with | [b] => return .crcByte (← parseInt b) | _ => none
  | "CRC_READ" => match ops with | [] => some .crcRead | _ => none
  | "CRC_COMPUTE" => match ops with | [d] => return .crcCompute (← parseBytes d) | _ => none
  | "CRC_VALIDATE" => match ops with | [d, c] => return .crcValidate (← parseBytes d) (← parseInt c) | _ => none
  | "DIRECT_ENABLE" => match ops with | [a, b] => return .directEnable (← parseBool a) (← parseBool b) | _ => none
  | "OPEN" => match ops with | [] => some .openSession | _ => none
  | "CLOSE" => match ops with | [] => some .closeSession | _ => none
  | _ => none

/-- The two optional operands of `TUNE_NUM` and `TUNE_SID` (R97). -/
def parseTune (make : Int → Option Bool → Option Int → Pseudo) : List (List Char) → Option Pseudo
  | [c] => return make (← parseInt c) none none
  | [c, d] => return make (← parseInt c) (some (← parseBool d)) none
  | [c, d, p] => return make (← parseInt c) (some (← parseBool d)) (some (← parseInt p))
  | _ => none

/-- The optional operand of `INFO_NUM` and `INFO_SID` (R97). -/
def parseInfo (make : Int → Option Int → Pseudo) : List (List Char) → Option Pseudo
  | c :: rest => return make (← parseInt c) (← parseOptional parseInt rest)
  | [] => none

/-- A pseudo-operation of R97. -/
def parsePseudo (m : String) (ops : List (List Char)) : Option Pseudo :=
  match m with
  | "TUNE_NUM" => parseTune .tuneNum ops
  | "TUNE_SID" => parseTune .tuneSid ops
  | "INFO_NUM" => parseInfo .infoNum ops
  | "INFO_SID" => parseInfo .infoSid ops
  | "MUTE_ON" => if ops.isEmpty then some .muteOn else none
  | "MUTE_OFF" => if ops.isEmpty then some .muteOff else none
  | "SIGNAL_MONITOR_ON" => if ops.isEmpty then some .signalMonitorOn else none
  | "SIGNAL_MONITOR_OFF" => if ops.isEmpty then some .signalMonitorOff else none
  | "CLOCK_MONITOR_ON" => if ops.isEmpty then some .clockMonitorOn else none
  | "CLOCK_MONITOR_OFF" => if ops.isEmpty then some .clockMonitorOff else none
  | "DIAG_MONITOR_ON" => if ops.isEmpty then some .diagMonitorOn else none
  | "DIAG_MONITOR_OFF" => if ops.isEmpty then some .diagMonitorOff else none
  | _ => none

/-- An environment input of a listing (R96). -/
def parseInput (m : String) (ops : List (List Char)) : Option Line :=
  match m with
  | "RX" => match ops with | [b] => return .rx (← parseBytes b) | _ => none
  | "TIMEOUT" => match ops with | [] => some .timeout | _ => none
  | "DELAY" => match ops with | [] => some .delay | _ => none
  | "LINK" => match ops with | [a] => return .link (← parseBool a) | _ => none
  | _ => none

/-- The operands of a line: none for an empty text, else the pieces between the commas. -/
def operandTexts (t : List Char) : List (List Char) :=
  if (trimText t).isEmpty then [] else (splitText (· == ',') t).map trimText

/-- A line of a listing (R96); a comment starts with `;`. `none` where it is no such line. -/
def assembleLine (text : String) : Option Line :=
  let t := trimText (text.toList.takeWhile (· != ';'))
  if t.isEmpty then some .blank
  else
    let m := String.ofList (t.takeWhile (fun c => !isBlank c))
    let ops := operandTexts (t.dropWhile (fun c => !isBlank c))
    match parseInput m ops, parsePseudo m ops, parseRequest m ops with
    | some l, _, _ => some l
    | none, some p, _ => some (.request (expand p))
    | none, none, some i => some (.request i)
    | none, none, none => none

/-- The turns a line asks for, its request presented by `r` and accepted (R96). The deframer's turns and the completion
of a held request are the schedule's and no line's. -/
def Line.turns (r : Nat) : Line → List Turn
  | .blank => []
  | .request i => [.present r i, .serve r]
  | .rx bytes => bytes.map .rxByte
  | .timeout => [.rxTimeout]
  | .delay => [.delayDone]
  | .link up => [.setLink up]

end Sys2Proof.Machine
end

