-- ==== Sys2Proof/Tests/Slice0.lean ====
section
/-! SUPPORT. The model's own tests: ill-formed requests, decoding, one step per instruction, and a witness for the
hypotheses of every statement. Expected values: spec/95_test_vectors.md (numbers V2.x, W, P) and spec/30_encoding.md R78. -/

namespace Sys2Proof.Tests

open Sys2Proof Sys2Proof.Config Sys2Proof.Machine Sys2Proof.Safety

/-- The default test setting of 95_test_vectors.md; its gain range and encoding are this file's. -/
def pt : Params where
  len0 := .deliver
  hdrShort := .keep
  gainMin := -10
  gainSpan := 13
  gainEnc := fun g => BitVec.ofInt 8 (g + 10)
  chmonOp1 := .op4F
  directArgs1Raw := []
  directArgs3Raw := []
  dataFwRaw := none
  auxPrefixRaw := none
  eaSubcode := 0
  eaLayout := ⟨0, 0, 0, 0, 0⟩
  cksumOrder := .big
  readTimeout := 0
  backoff := 0
  directDelay := 0

/-- After reset, with the link up. -/
def up : State := State.powerOn true false

/-- After reset, with the link down. -/
def down : State := State.powerOn false false

/-- Just after `OPEN`, with these bytes waiting. -/
def openWith (bytes : List Byte) : State := { up with rxMode := .hdr, rxq := bytes }

/-- Collecting the body of a frame with LEN 6 and code 10, one byte in. -/
def midBody : State := { up with rxMode := .body, frLen := 6, frCode := 0x10#8, bodyBuf := [0x02#8] }

/-- A sequence of requester 7 in this step. -/
def sequencing (k : SeqStep) : State := { up with seqStep := k, seqReq := some 7, seqF1 := true }

/-- Requester 1 presents this request and has the next turn. -/
def presents (i : Instr) : State := { up with reqPort := [⟨1, i⟩], agenda := [.serve 1] }

/-- What an outcome left on `TXQ`. -/
def txOf : Host.Outcome State Fault Refusal → Option (List Byte)
  | .next t => some t.txq
  | .fault _ => none
  | .refused _ => none

/-- The last reply of an outcome. -/
def lastReply : Host.Outcome State Fault Refusal → Option (Status × Info)
  | .next t => t.replies.getLast?.map (fun r => (r.status, r.info))
  | .fault _ => none
  | .refused _ => none

/-- The state of an outcome. -/
def after : Host.Outcome State Fault Refusal → Option State
  | .next t => some t
  | .fault _ => none
  | .refused _ => none

/-! ## Ill-formed requests: each check refuses one -/

theorem test_illFormed_powerUp_operand0 : (.powerUp 256 0 0 false : Instr).wf = false := by decide

theorem test_illFormed_powerUp_operand1 : (.powerUp 0 (-1) 0 false : Instr).wf = false := by decide

theorem test_illFormed_powerUp_operand2 : (.powerUp 0 0 256 false : Instr).wf = false := by decide

theorem test_illFormed_changeChannel_channel : (.changeChannel false 256 false 0 : Instr).wf = false := by decide

theorem test_illFormed_changeChannel_progType : (.changeChannel false 1 false (-1) : Instr).wf = false := by decide

theorem test_illFormed_cancelChannel : (.cancelChannel (-5) false : Instr).wf = false := by decide

theorem test_illFormed_extInfo : (.extInfo 256 : Instr).wf = false := by decide

theorem test_illFormed_channelInfo_channel : (.channelInfo false 256 0 : Instr).wf = false := by decide

theorem test_illFormed_channelInfo_progType : (.channelInfo false 1 999 : Instr).wf = false := by decide

theorem test_illFormed_dataSelect : (.dataSelect 256 false false : Instr).wf = false := by decide

theorem test_illFormed_channelMonitor : (.channelMonitor 256 true true true true false : Instr).wf = false := by decide

theorem test_illFormed_crcByte : (.crcByte 256 : Instr).wf = false := by decide

theorem test_illFormed_crcValidate : (.crcValidate [] 65536 : Instr).wf = false := by decide

theorem test_illFormed_crcValidate_negative : (.crcValidate [] (-1) : Instr).wf = false := by decide

theorem test_illFormed_sendRaw : (Instr.sendRaw (List.replicate 65536 0)).wf = false := by
  simp only [Instr.wf, Instr.ranges, List.length_replicate]
  decide

theorem test_wellFormed_boundaries :
    (Instr.powerUp 0 255 0 true).wf = true ∧ (Instr.crcValidate [] 65535).wf = true ∧ (Instr.crcByte 255).wf = true := by
  decide

/-! ## Decoding: a payload of every row of R78, written out (95_test_vectors.md section 2.5) -/

theorem test_decode_powerUp : decodePayload pt false [0x00#8, 0x00#8, 0xFF#8, 0x08#8, 0x01#8] = .ok (.powerUp 0 255 8 true) := by rfl

theorem test_decode_powerDown : decodePayload pt false [0x01#8, 0x01#8] = .ok (.powerDown true) := by rfl

theorem test_decode_changeChannel : decodePayload pt false [0x10#8, 0x01#8, 0x2A#8, 0x01#8, 0x00#8, 0x02#8] = .ok (.changeChannel true 42 true 0) := by rfl

theorem test_decode_cancelChannel : decodePayload pt false [0x11#8, 0x07#8, 0x01#8] = .ok (.cancelChannel 7 true) := by rfl

theorem test_decode_mute : decodePayload pt false [0x13#8, 0x01#8] = .ok (.mute true) := by rfl

theorem test_decode_extInfo : decodePayload pt false [0x22#8, 0x01#8] = .ok (.extInfo 1) := by rfl

theorem test_decode_channelInfo : decodePayload pt false [0x25#8, 0x08#8, 0x01#8, 0x00#8] = .ok (.channelInfo false 1 0) := by rfl

theorem test_decode_radioId : decodePayload pt false [0x31#8] = .ok (.radioId) := by rfl

theorem test_decode_signalMonitor : decodePayload pt false [0x42#8, 0x01#8] = .ok (.signalMonitor true) := by rfl

theorem test_decode_signalInfo : decodePayload pt false [0x43#8] = .ok (.signalInfo) := by rfl

theorem test_decode_clockMonitor : decodePayload pt false [0x4E#8, 0x00#8] = .ok (.clockMonitor false) := by rfl

theorem test_decode_dataSelect : decodePayload pt false [0x4A#8, 0x10#8, 0xF0#8, 0x01#8, 0x00#8] = .ok (.dataSelect 240 true false) := by rfl

theorem test_decode_dataPing : decodePayload pt false [0x4A#8, 0x43#8] = .ok (.dataPing) := by rfl

theorem test_decode_channelMonitor_50 : decodePayload pt false [0x50#8, 0x05#8, 0x01#8, 0x00#8, 0x01#8, 0x00#8] = .ok (.channelMonitor 5 true false true false false) := by rfl

theorem test_decode_channelMonitor_4F : decodePayload pt false [0x4F#8, 0x05#8, 0x01#8, 0x00#8, 0x01#8, 0x00#8] = .ok (.channelMonitor 5 true false true false true) := by rfl

theorem test_decode_diagMonitor : decodePayload pt false [0x60#8, 0x01#8] = .ok (.diagMonitor true) := by rfl

theorem test_decode_fwVersion : decodePayload pt false [0x70#8, 0x05#8] = .ok (.fwVersion) := by rfl

theorem test_decode_directListen : decodePayload pt false [0x74#8, 0x00#8] = .ok (.directListen) := by rfl

theorem test_decode_directPower : decodePayload pt false [0x74#8, 0x02#8, 0x01#8, 0x00#8] = .ok (.directPower true false) := by rfl

theorem test_decode_directUnmute : decodePayload pt false [0x74#8, 0x0B#8] = .ok (.directUnmute) := by rfl

theorem test_decode_setLineLevel : ∃ g, decodePayload pt false [0x0B#8, 0x00#8] = .ok (.setLineLevel g) := ⟨_, rfl⟩

theorem test_decode_dataFwVersion :
    decodePayload { pt with dataFwRaw := some (0x4A#8, [0x21#8]) } false [0x4A#8, 0x21#8] = .ok .dataFwVersion := by rfl

theorem test_decode_auxToggle :
    decodePayload { pt with auxPrefixRaw := some [0x4A#8, 0x20#8] } false [0x4A#8, 0x20#8, 0x01#8] = .ok (.auxToggle true) := by
  rfl

theorem test_decode_refusesReserved : decodePayload pt false [0x02#8] = .error (.reservedOpcode 0x02#8) := by rfl

theorem test_decode_refusesReservedSubcode :
    decodePayload pt false [0x74#8, 0x01#8] = .error (.reservedSubcode 0x74#8 0x01#8) := by rfl

theorem test_decode_refusesShort : decodePayload pt false [0x10#8, 0x02#8] = .error (.truncatedPayload 0x10#8) := by rfl

theorem test_decode_refusesBadRoute :
    decodePayload pt false [0x10#8, 0x02#8, 0x01#8, 0x00#8, 0x00#8, 0x02#8] = .error (.notProduced 0x10#8) := by rfl

theorem test_tableWord_oneByte : decodeTableWord 8 0x31 = some .radioId := by rfl

theorem test_tableWord_twoBytes : decodeTableWord 16 0x4A43 = some .dataPing := by rfl

/-! ## One step of every instruction -/

theorem test_send_powerUp : txOf (exec (.powerUp 16 16 16 false) up) =
    some [0x5A#8, 0xA5#8, 0x00#8, 0x05#8, 0x00#8, 0x10#8, 0x10#8, 0x10#8, 0x00#8, 0xED#8, 0xED#8] := by decide

theorem test_send_powerDown : txOf (exec (.powerDown true) up) =
    some [0x5A#8, 0xA5#8, 0x00#8, 0x02#8, 0x01#8, 0x01#8, 0xED#8, 0xED#8] := by decide

theorem test_send_changeChannel : txOf (exec (.changeChannel false 255 true 3) up) =
    some [0x5A#8, 0xA5#8, 0x00#8, 0x06#8, 0x10#8, 0x02#8, 0xFF#8, 0x01#8, 0x03#8, 0x02#8, 0xED#8, 0xED#8] := by decide

theorem test_send_cancelChannel : txOf (exec (.cancelChannel 7 true) up) =
    some [0x5A#8, 0xA5#8, 0x00#8, 0x03#8, 0x11#8, 0x07#8, 0x01#8, 0xED#8, 0xED#8] := by decide

theorem test_send_mute : txOf (exec (.mute false) up) =
    some [0x5A#8, 0xA5#8, 0x00#8, 0x02#8, 0x13#8, 0x00#8, 0xED#8, 0xED#8] := by decide

theorem test_send_extInfo : txOf (exec (.extInfo 1) up) =
    some [0x5A#8, 0xA5#8, 0x00#8, 0x02#8, 0x22#8, 0x01#8, 0xED#8, 0xED#8] := by decide

theorem test_send_channelInfo : txOf (exec (.channelInfo true 42 0) up) =
    some [0x5A#8, 0xA5#8, 0x00#8, 0x04#8, 0x25#8, 0x07#8, 0x2A#8, 0x00#8, 0xED#8, 0xED#8] := by decide

theorem test_send_radioId : txOf (exec (.radioId) up) =
    some [0x5A#8, 0xA5#8, 0x00#8, 0x01#8, 0x31#8, 0xED#8, 0xED#8] := by decide

theorem test_send_signalMonitor : txOf (exec (.signalMonitor true) up) =
    some [0x5A#8, 0xA5#8, 0x00#8, 0x02#8, 0x42#8, 0x01#8, 0xED#8, 0xED#8] := by decide

theorem test_send_signalInfo : txOf (exec (.signalInfo) up) =
    some [0x5A#8, 0xA5#8, 0x00#8, 0x01#8, 0x43#8, 0xED#8, 0xED#8] := by decide

theorem test_send_clockMonitor : txOf (exec (.clockMonitor true) up) =
    some [0x5A#8, 0xA5#8, 0x00#8, 0x02#8, 0x4E#8, 0x01#8, 0xED#8, 0xED#8] := by decide

theorem test_send_dataSelect : txOf (exec (.dataSelect 240 true false) up) =
    some [0x5A#8, 0xA5#8, 0x00#8, 0x05#8, 0x4A#8, 0x10#8, 0xF0#8, 0x01#8, 0x00#8, 0xED#8, 0xED#8] := by decide

theorem test_send_dataPing : txOf (exec (.dataPing) up) =
    some [0x5A#8, 0xA5#8, 0x00#8, 0x02#8, 0x4A#8, 0x43#8, 0xED#8, 0xED#8] := by decide

theorem test_send_diagMonitor : txOf (exec (.diagMonitor true) up) =
    some [0x5A#8, 0xA5#8, 0x00#8, 0x02#8, 0x60#8, 0x01#8, 0xED#8, 0xED#8] := by decide

theorem test_send_fwVersion : txOf (exec (.fwVersion) up) =
    some [0x5A#8, 0xA5#8, 0x00#8, 0x02#8, 0x70#8, 0x05#8, 0xED#8, 0xED#8] := by decide

theorem test_send_directPower : txOf (exec (.directPower true false) up) =
    some [0x5A#8, 0xA5#8, 0x00#8, 0x04#8, 0x74#8, 0x02#8, 0x01#8, 0x00#8, 0xED#8, 0xED#8] := by decide

theorem test_send_sendRaw_noStuffing : txOf (exec (.sendRaw [0xEA#8, 0x5A#8, 0xA5#8, 0xED#8, 0xED#8]) up) =
    some [0x5A#8, 0xA5#8, 0x00#8, 0x05#8, 0xEA#8, 0x5A#8, 0xA5#8, 0xED#8, 0xED#8, 0xED#8, 0xED#8] := by decide

theorem test_send_sendRaw_empty : txOf (exec (.sendRaw []) up) =
    some [0x5A#8, 0xA5#8, 0x00#8, 0x00#8, 0xED#8, 0xED#8] := by decide

theorem test_send_channelMonitor :
    (channelMonitor pt 5 true false true false false up).txq =
      [0x5A#8, 0xA5#8, 0x00#8, 0x06#8, 0x50#8, 0x05#8, 0x01#8, 0x00#8, 0x01#8, 0x00#8, 0xED#8, 0xED#8] := by decide

theorem test_send_channelMonitor_dataMode :
    (channelMonitor pt 5 true false true false false { up with dataModeActive := true }).txq =
      [0x5A#8, 0xA5#8, 0x00#8, 0x06#8, 0x4F#8, 0x05#8, 0x01#8, 0x00#8, 0x01#8, 0x00#8, 0xED#8, 0xED#8] := by decide

theorem test_send_setLineLevel_clamps : (setLineLevel pt 1003 up).txq = (setLineLevel pt 3 up).txq := by decide

theorem test_send_directListen :
    (directListen { pt with directArgs1Raw := [0x01#8] } up).txq =
      [0x5A#8, 0xA5#8, 0x00#8, 0x03#8, 0x74#8, 0x00#8, 0x01#8, 0xED#8, 0xED#8] := by decide

theorem test_send_directUnmute :
    (directUnmute pt up).txq = [0x5A#8, 0xA5#8, 0x00#8, 0x02#8, 0x74#8, 0x0B#8, 0xED#8, 0xED#8] := by decide

theorem test_send_auxToggle :
    (auxToggle { pt with auxPrefixRaw := some [0x4A#8, 0x20#8] } true up).txq =
      [0x5A#8, 0xA5#8, 0x00#8, 0x03#8, 0x4A#8, 0x20#8, 0x01#8, 0xED#8, 0xED#8] := by decide

theorem test_refuse_auxToggle : lastReply (.next (auxToggle pt true up)) = some (.refused, .command .auxToggle) := by
  decide

theorem test_refuse_dataFwVersion_beforeLink :
    lastReply (.next (dataFwVersion pt down)) = some (.refused, .command .dataFwVersion) := by decide

theorem test_reply_changeChannel_firstOperand :
    lastReply (exec (.changeChannel false 300 false 300) down) = some (.invalidArgument, .operand 1) := by decide

theorem test_reply_powerUp_firstOperand :
    lastReply (exec (.powerUp 16 256 (-1) false) up) = some (.invalidArgument, .operand 1) := by decide

theorem test_reply_radioId_linkDown :
    lastReply (exec .radioId down) = some (.transportUnavailable, .none) := by decide

theorem test_crcInit : (after (exec .crcInit { up with crcAcc := 0x1234#16 })).map (·.crcAcc) = some 0xFFFF#16 := by
  decide

theorem test_crcByte : (after (exec (.crcByte 0xAB) up)).map (·.crcAcc) = some 0xE571#16 := by decide +kernel

theorem test_crcByte_range :
    lastReply (exec (.crcByte 256) up) = some (.invalidArgument, .operand 0) := by decide

theorem test_crcRead : lastReply (exec .crcRead { up with crcAcc := 0x07C9#16 }) = some (.ok, .crc 0xF836#16) := by
  decide

theorem test_crcCompute :
    lastReply (exec (.crcCompute [0x31#8, 0x32#8, 0x33#8, 0x34#8, 0x35#8, 0x36#8, 0x37#8, 0x38#8, 0x39#8]) down) =
      some (.ok, .crc 0xD64E#16) := by decide +kernel

theorem test_crcValidate_mismatch :
    lastReply (exec (.crcValidate [0xAB#8, 0xCD#8, 0x12#8, 0x34#8] 0x36F8) down) =
      some (.checksumMismatch, .checksums 0x36F8#16 0xF836#16) := by decide +kernel

theorem test_crcValidate_empty :
    lastReply (exec (.crcValidate [] 0) up) = some (.ok, .checksums 0 0) := by decide

theorem test_directEnable_pending :
    let t := directEnable pt true false up
    t.seqStep = .wait1 ∧ t.replies = [] ∧ t.txq = [0x5A#8, 0xA5#8, 0x00#8, 0x02#8, 0x74#8, 0x00#8, 0xED#8, 0xED#8] := by
  decide

theorem test_directEnable_linkDown :
    lastReply (.next (directEnable pt false false down)) = some (.transportUnavailable, .seqStep 1) := by decide

theorem test_delayDone_linkDown :
    lastReply (.next (delayDone pt { sequencing .wait1 with link := false })) = some (.transportUnavailable, .seqStep 2) := by
  decide

theorem test_close_cancelsSequence :
    lastReply (exec .closeSession (sequencing .wait2)) = some (.cancelled, .none) := by decide

theorem test_open_completes :
    let t := completeJoin { up with join := some ⟨0, .opening⟩, cancel := true, rxq := [0x5A#8] }
    t.rxMode = .hdr ∧ t.cancel = false ∧ t.rxq = [] ∧ t.replies = [⟨0, .ok, .none⟩] := by decide

theorem test_close_waits : completeJoin { midBody with join := some ⟨0, .closing⟩ } =
    { midBody with join := some ⟨0, .closing⟩ } := by decide

/-! ## The deframer (95_test_vectors.md section 2.2 and the examples of 40_framer.md), and the step -/

theorem test_deframer_headerByte :
    let t := deframerStep pt { openWith [0x01#8, 0x31#8, 0xED#8, 0xED#8] with hdrBuf := [0x5A#8, 0xA5#8, 0x00#8] }
    t.hdrBuf = [0x5A#8, 0xA5#8, 0x00#8, 0x01#8] ∧ t.rxq = [0x31#8, 0xED#8, 0xED#8] := by decide

theorem test_deframer_lastBodyByte :
    (deframerStep pt { midBody with frLen := 1, frCode := 0x31#8, bodyBuf := [0xED#8], rxq := [0xED#8] }).evq =
      [.payload [0x31#8]] := by decide

theorem test_deframer_emptyFrame :
    (deframerStep { pt with len0 := .discard } { midBody with frLen := 0, bodyBuf := [], rxq := [0xED#8] }).evq =
      [.status .emptyFrame .none] := by decide

theorem test_deframer_cancelBeforeByte :
    let t := deframerStep pt { openWith [0x5A#8] with cancel := true }
    t.rxMode = .stopped ∧ t.rxq = [0x5A#8] ∧ t.evq = [.status .cancelled .none] := by decide

theorem test_timeout_truncated :
    (rxTimeout pt midBody).evq = [.status .truncatedBody (.truncated 6 1)] := by decide

theorem test_timeout_shortHeaderDiscarded :
    (rxTimeout { pt with hdrShort := .discard } { openWith [] with hdrBuf := [0x5A#8, 0xA5#8] }).evq =
      [.status .headerMismatch (.header [0x5A#8, 0xA5#8])] := by decide

theorem test_step_serves : step (presents (.mute true)) = exec (.mute true) { presents (.mute true) with agenda := [], serving := 1 } := by
  rfl

theorem test_fetch_runs : txOf (step (State.withFetchWord up 8 0x31)) =
    some [0x5A#8, 0xA5#8, 0x00#8, 0x01#8, 0x31#8, 0xED#8, 0xED#8] := by decide

theorem test_assemble_request :
    assembleLine "CHANGE_CHANNEL 0, 0x2A, true, 3 ; tune" = some (.request (.changeChannel false 42 true 3)) := by
  decide +kernel

theorem test_assemble_pseudo : assembleLine "TUNE_NUM 1" = some (.request (.changeChannel false 1 false 0)) := by
  decide +kernel

theorem test_assemble_input : assembleLine "RX [5A A5]" = some (.rx [0x5A#8, 0xA5#8]) := by decide +kernel

theorem test_checksumField_order :
    checksumField pt 0xF8#8 0x36#8 = 0xF836#16 ∧
      checksumField { pt with cksumOrder := .little } 0xF8#8 0x36#8 = 0x36F8#16 := by decide

/-! ## Witnesses: a concrete state and operands that meet the hypotheses of each statement, clause by clause -/

/-- A legal state in the middle of a header, with a deframer turn next. -/
def midHeader : State := { openWith [0x00#8] with hdrBuf := [0x5A#8, 0xA5#8], agenda := [.deframer] }

theorem witness_StepKeepsTheInvariant : Legal midHeader ∧ ∃ t, step midHeader = .next t :=
  ⟨by unfold Legal; decide, _, rfl⟩

theorem witness_StepKeepsTheInvariant_inService :
    Legal { sequencing .wait2 with
      reqPort := [⟨1, .radioId⟩], join := some ⟨2, .closing⟩, cancel := true, agenda := [.delayDone] } := by
  unfold Legal; decide

theorem witness_StepServesThePresentedRequest :
    (presents .radioId).agenda = [.serve 1] ∧ presented 1 (presents .radioId) = some ⟨1, .radioId⟩ := by decide

theorem witness_StepTakesTheNextTurn : presented 2 (presents .radioId) = none := by decide

theorem witness_PresentingAddsOneRequest : 2 ∉ outstanding (presents .radioId) ∧ 1 ∈ outstanding (presents .radioId) := by
  decide

theorem witness_DecodeOfEncodeIsTheCommand :
    hasFixedRow (.powerUp 0 255 0 true) = true ∧ (Instr.powerUp 0 255 0 true).wf = true ∧
      encode pt false (.powerUp 0 255 0 true) = some [0x00#8, 0x00#8, 0xFF#8, 0x00#8, 0x01#8] := by decide

theorem witness_DecodeOfEncodeIsTheCommand_gain : encode pt false (.setLineLevel 0) = some [0x0B#8, 0x0A#8] := by decide

/-- A payload that begins with `4A 21` is the payload of no command with a fixed row, and not of `SET_LINE_LEVEL`. -/
theorem no_row_4A21 (P : Params) (dm : Bool) (rest : List Byte) :
    (∀ i : Instr, hasFixedRow i = true → i.wf = true → encode P dm i ≠ some (0x4A#8 :: 0x21#8 :: rest)) ∧
      ∀ e : Byte, (0x4A#8 :: 0x21#8 :: rest : List Byte) ≠ [0x0B#8, e] := by
  refine ⟨fun i hf _ h => ?_, fun e h => by simp at h⟩
  cases i <;> simp [encode, hasFixedRow] at h hf
  case channelMonitor ch sv ty inf ext ov =>
    unfold chmonByte at h
    split at h <;> simp at h

/-- The test setting with both parameters given. -/
def given : Params := { pt with dataFwRaw := some (0x4A#8, [0x21#8]), auxPrefixRaw := some [0x4A#8, 0x21#8] }

theorem witness_DecodeOfEncodeIsTheCommand_dataFwVersion :
    (∀ i : Instr, hasFixedRow i = true → i.wf = true → encode given true i ≠ some [0x4A#8, 0x21#8]) ∧
      (∀ e : Byte, ([0x4A#8, 0x21#8] : List Byte) ≠ [0x0B#8, e]) ∧ given.dataFwPayload = some [0x4A#8, 0x21#8] :=
  ⟨(no_row_4A21 given true []).1, (no_row_4A21 given true []).2, rfl⟩

theorem witness_DecodeOfEncodeIsTheCommand_auxToggle :
    let p := [0x4A#8, 0x21#8, 0x01#8]
    (∀ i : Instr, hasFixedRow i = true → i.wf = true → encode given true i ≠ some p) ∧
      (∀ e : Byte, p ≠ [0x0B#8, e]) ∧ given.auxPrefix = some [0x4A#8, 0x21#8] ∧
      p = [0x4A#8, 0x21#8] ++ [if true then 0x01#8 else 0x00#8] ∧ given.dataFwPayload ≠ some p :=
  ⟨(no_row_4A21 given true [0x01#8]).1, (no_row_4A21 given true [0x01#8]).2, rfl, rfl, by decide⟩

theorem witness_DecodedPayloadIsTheCommandsOwn : decodePayload pt true [0x31#8] = .ok .radioId := by rfl

theorem witness_DecodedPayloadIsTheCommandsOwn_gain :
    ∃ g, decodePayload pt true [0x0B#8, 0xFF#8] = .ok (.setLineLevel g) := ⟨_, rfl⟩

theorem witness_ReservedPrefixesAreRefused :
    (0xFF#8 : Byte).toNat ∉ [0x00, 0x01, 0x0B, 0x10, 0x11, 0x13, 0x22, 0x25, 0x31, 0x42, 0x43, 0x4A, 0x4E, 0x4F, 0x50, 0x60, 0x70, 0x74] ∧
      (0x11#8 : Byte).toNat ∉ [0x10, 0x43] ∧ (0x01#8 : Byte).toNat ∉ [0x00, 0x02, 0x0B] ∧ (0x06#8 : Byte).toNat ≠ 0x05 := by
  decide

theorem witness_FrameCarriesThePayloadVerbatim : (List.replicate 65535 (0x5A#8 : Byte)).length ≤ 65535 :=
  List.length_replicate.le

theorem witness_PowerCommandsFollowTheirRules :
    up.link = true ∧ down.link = false ∧ firstOutOfU8 [] = none ∧
      firstOutOfU8 [(0, 0), (1, 255), (2, 0)] = none ∧ firstOutOfU8 [(0, 0), (1, -1), (2, 256)] = some 1 := by decide

theorem witness_ChannelCommandsFollowTheirRules :
    up.link = true ∧ down.link = false ∧ firstOutOfU8 [(1, 255), (3, 0)] = none ∧
      firstOutOfU8 [(1, 255), (3, 256)] = some 3 ∧ firstOutOfU8 [(0, 0)] = none ∧ firstOutOfU8 [(0, 256)] = some 0 ∧
      firstOutOfU8 [(1, 0), (2, 255)] = none ∧ firstOutOfU8 [(1, -1), (2, 255)] = some 1 := by decide

theorem witness_ToggleCommandsFollowTheirRules :
    up.link = true ∧ down.link = false ∧ firstOutOfU8 [] = none := by decide

theorem witness_QueryCommandsFollowTheirRules :
    up.link = true ∧ down.link = false ∧ firstOutOfU8 [] = none := by decide

theorem witness_DataModeCommandsFollowTheirRules :
    up.link = true ∧ down.link = false ∧ firstOutOfU8 [(0, 255)] = none ∧ firstOutOfU8 [(0, 256)] = some 0 := by decide

theorem witness_DirectCommandsFollowTheirRules :
    up.link = true ∧ down.link = false ∧ firstOutOfU8 [] = none := by decide

theorem witness_SetLineLevelClampsAndSends :
    up.link = true ∧ down.link = false ∧ firstOutOfU8 [] = none ∧ pt.gainMin ≤ -10 ∧ (-10 : Int) ≤ pt.gainMin ∧ (3 : Int) ≤ pt.gainMax ∧ pt.gainMax ≤ 3 ∧ pt.gainMin ≤ 3 := by decide

theorem witness_ChannelMonitorFollowsItsRule :
    up.link = true ∧ down.link = false ∧ firstOutOfU8 [(0, 0)] = none ∧ firstOutOfU8 [(0, -1)] = some 0 ∧
      pt.chmonOp1 = .op4F ∧ ({ pt with chmonOp1 := .op50 } : Params).chmonOp1 = .op50 := by decide

theorem witness_ParameterCommandsFollowTheirRules :
    pt.dataFwPayload = none ∧ pt.auxPrefix = none ∧
      ({ pt with dataFwRaw := some (0x4A#8, []) } : Params).dataFwPayload = some [0x4A#8] ∧
      ({ pt with auxPrefixRaw := some [] } : Params).auxPrefix = some [] ∧ up.link = true := by decide

theorem witness_FirstFailingOperandIsReported :
    (Instr.powerUp 0 256 (-1) true).firstFailing = some 1 ∧ (Instr.crcValidate [] 65536).firstFailing = some 1 ∧
      (Instr.crcByte (-1)).firstFailing = some 0 ∧ (Instr.powerUp 0 255 0 true).firstFailing = none := by decide

theorem witness_CommandsWriteOnlyTheQueues : isCommand .radioId = true ∧ ∃ t, exec .radioId up = .next t := ⟨rfl, _, rfl⟩

theorem witness_DataModeIsReadByChannelMonitorOnly :
    (∀ ch sv ty inf ext ov, Instr.radioId ≠ .channelMonitor ch sv ty inf ext ov) ∧ ∃ t, exec .radioId up = .next t :=
  ⟨by simp, _, rfl⟩

theorem witness_CommandsReadOnlyTheLinkAndTheDataMode :
    let s := { sequencing .wait1 with frLen := 3 }
    isCommand .radioId = true ∧ up.link = s.link ∧ up.dataModeActive = s.dataModeActive ∧ up.serving = s.serving ∧
      (∃ t, exec .radioId up = .next t) ∧ ∃ t, exec .radioId s = .next t :=
  ⟨rfl, rfl, rfl, rfl, ⟨_, rfl⟩, _, rfl⟩

theorem witness_SendRawFollowsItsRule :
    (List.replicate 65535 (0 : Byte)).length ≤ 65535 ∧ 65535 < (List.replicate 65536 (0 : Byte)).length ∧
      up.link = true ∧ down.link = false :=
  ⟨List.length_replicate.le, by rw [List.length_replicate]; decide, rfl, rfl⟩

theorem witness_TxqGrowsByWholeFrames : ∃ t, step (presents .radioId) = .next t := ⟨_, rfl⟩

theorem witness_HeaderBytesAreTakenAndChecked :
    midHeader.rxMode = .hdr ∧ midHeader.link = true ∧ midHeader.rxq = [0x00#8] ∧ midHeader.hdrBuf.length < 4 ∧
      midHeader.hdrBuf ≠ [] ∧ (openWith []).rxMode = .hdr ∧ (openWith []).cancel = false ∧ (openWith []).rxq = [] ∧
      (openWith []).link = true := by decide

/-- Four header bytes in, the fifth waiting: the right marker, and a wrong one at either byte. -/
def fourIn (m0 m1 : Byte) : State := { openWith [0x31#8] with hdrBuf := [m0, m1, 0xFF#8, 0xFF#8] }

theorem witness_HeaderBytesAreTakenAndChecked_fifth :
    (fourIn 0x5A#8 0xA5#8).rxMode = .hdr ∧ (fourIn 0x5A#8 0xA5#8).link = true ∧ (fourIn 0x5A#8 0xA5#8).rxq = [0x31#8] ∧
      (fourIn 0x5A#8 0xA5#8).hdrBuf = [0x5A#8, 0xA5#8, 0xFF#8, 0xFF#8] ∧
      (fourIn 0x00#8 0xA5#8).hdrBuf = [0x00#8, 0xA5#8, 0xFF#8, 0xFF#8] ∧ (0x00#8 : Byte) ≠ 0x5A#8 ∧
      (fourIn 0x5A#8 0xA5#8).hdrBuf ≠ [] := by decide

theorem witness_HeaderBytesAreTakenAndChecked_noByte :
    let s := { openWith [] with hdrBuf := [0x5A#8] }
    s.rxMode = .hdr ∧ s.hdrBuf ≠ [] ∧ s.rxq = [] := by decide

theorem witness_BodyBytesAreTakenAndDelivered :
    let s := { midBody with rxq := [0x01#8] }
    let last := { midBody with rxq := [0x01#8], frLen := 1 }
    s.rxMode = .body ∧ s.link = true ∧ s.rxq = [0x01#8] ∧ s.bodyBuf.length < s.frLen.toNat ∧
      last.rxMode = .body ∧ last.link = true ∧ last.rxq = [0x01#8] ∧ last.bodyBuf.length = last.frLen.toNat ∧
      1 ≤ last.frLen.toNat := by decide

theorem witness_BodyBytesAreTakenAndDelivered_noByte : midBody.rxMode = .body ∧ midBody.rxq = [] := by decide

theorem witness_BodyBytesAreTakenAndDelivered_len0 :
    let s := { midBody with rxq := [0xED#8], frLen := 0, bodyBuf := [] }
    s.rxMode = .body ∧ s.link = true ∧ s.rxq = [0xED#8] ∧ s.frLen = 0 ∧ s.bodyBuf = [] ∧ pt.len0 = .deliver ∧
      ({ pt with len0 := .discard } : Params).len0 = .discard := by decide

theorem witness_CancelStopsTheDeframerAtAnAttemptsStart :
    let s := { openWith [0x5A#8] with cancel := true }
    s.rxMode = .hdr ∧ s.hdrBuf = [] ∧ s.cancel = true ∧ (deframerStep pt s).rxMode = .stopped := by decide

theorem witness_LinkDownIsReportedAtAnAttemptsStart :
    let s := { openWith [] with link := false }
    s.rxMode = .hdr ∧ s.hdrBuf = [] ∧ s.cancel = false ∧ s.link = false := by decide

theorem witness_HeaderTimeoutFollowsItsRule :
    let s := { openWith [] with hdrBuf := [0x5A#8] }
    let c := { openWith [] with cancel := true }
    s.rxMode = .hdr ∧ s.rxq = [] ∧ s.cancel = false ∧ s.hdrBuf ≠ [] ∧ pt.hdrShort = .keep ∧
      ({ pt with hdrShort := .discard } : Params).hdrShort = .discard ∧
      c.rxMode = .hdr ∧ c.rxq = [] ∧ c.cancel = true ∧ midHeader.rxMode = .hdr ∧ midHeader.link = true ∧
      midHeader.rxq ≠ [] := by decide

theorem witness_BodyTimeoutDiscardsThePartialBody :
    let s := { midBody with rxq := [0x00#8] }
    midBody.rxMode = .body ∧ midBody.rxq = [] ∧ s.rxMode = .body ∧ s.link = true ∧ s.rxq ≠ [] := by decide

theorem witness_StoppedDeframerHolds : up.rxMode = .stopped := by decide

/-- One frame waiting, with its seven deframer turns. -/
def oneFrame : State := { openWith (frameEncode [0x31#8]) with agenda := List.replicate 7 .deframer }

theorem witness_DeframingAnEncodedFrameDeliversIt :
    oneFrame.rxMode = .hdr ∧ oneFrame.hdrBuf = [] ∧ oneFrame.bodyBuf = [] ∧ oneFrame.cancel = false ∧
      oneFrame.link = true ∧ oneFrame.rxq = frameEncode [0x31#8] ∧
      oneFrame.agenda = List.replicate ([0x31#8].length + 6) .deframer ++ [] := by decide

theorem witness_DeframingAnEncodedFrameDeliversIt_longest :
    1 ≤ (List.replicate 65535 (0 : Byte)).length ∧ (List.replicate 65535 (0 : Byte)).length ≤ 65535 :=
  ⟨by rw [List.length_replicate]; decide, List.length_replicate.le⟩

theorem witness_MismatchedHeaderIsDiscardedWhole :
    let s := { openWith [0x00#8, 0x5A#8, 0xA5#8, 0x00#8, 0x01#8] with agenda := List.replicate 5 .deframer }
    s.rxMode = .hdr ∧ s.hdrBuf = [] ∧ s.cancel = false ∧ s.link = true ∧ (0x00#8 : Byte) ≠ 0x5A#8 ∧
      s.agenda = List.replicate 5 .deframer ++ [] := by decide

theorem witness_RxqIsConsumedFromItsHead : ∃ t, step midHeader = .next t := ⟨_, rfl⟩

theorem witness_ChecksumRequestsFollowTheirRules :
    (0 : Int) ≤ 255 ∧ ((-1 : Int) < 0 ∨ (255 : Int) < -1) ∧ ((256 : Int) < 0 ∨ (255 : Int) < 256) := by decide

theorem witness_ValidatorFollowsItsRule :
    (crc16Genibus []).toNat = (0 : Int).toNat ∧ (crc16Genibus []).toNat ≠ (65535 : Int).toNat ∧
      ((-1 : Int) < 0 ∨ (65535 : Int) < -1) ∧ ((65536 : Int) < 0 ∨ (65535 : Int) < 65536) := by decide

theorem witness_ValidatorFindsOneByteErrors : (0x00#8 : Byte) ≠ 0x80#8 := by decide

theorem witness_DirectEnableStartsTheSequence :
    up.seqStep = .idle ∧ up.link = true ∧ down.seqStep = .idle ∧ down.link = false := by decide

theorem witness_DirectEnableIsHeldWhileASequenceRuns :
    (sequencing .wait3).seqStep ≠ .idle ∧ (∀ f1 f2, Instr.radioId ≠ .directEnable f1 f2) ∧
      Instr.radioId ≠ .openSession ∧ Instr.radioId ≠ .closeSession ∧ ∃ t, exec .radioId (sequencing .wait3) = .next t :=
  ⟨by decide, by simp, by decide, by decide, _, rfl⟩

theorem witness_DelayDoneTakesTheNextStep :
    up.seqStep = .idle ∧ (sequencing .wait1).seqStep = .wait1 ∧ (sequencing .wait1).link = true ∧
      (sequencing .wait2).seqStep = .wait2 ∧ (sequencing .wait2).link = true ∧
      (sequencing .wait3).seqStep = .wait3 ∧ (sequencing .wait3).seqReq = some 7 := by decide

theorem witness_DelayDoneTakesTheNextStep_linkDown :
    let s := { sequencing .wait1 with link := false }
    let u := { sequencing .wait2 with link := false }
    s.link = false ∧ s.seqReq = some 7 ∧ s.seqStep = .wait1 ∧ u.link = false ∧ u.seqReq = some 7 ∧ u.seqStep = .wait2 := by
  decide

theorem witness_SequenceSendsThreeFramesAndRepliesOnce :
    let s := { presents (.directEnable true false) with agenda := [.serve 1, .delayDone, .delayDone, .delayDone] }
    s.seqStep = .idle ∧ s.link = true ∧ presented 1 s = some ⟨1, .directEnable true false⟩ ∧
      s.agenda = [.serve 1, .delayDone, .delayDone, .delayDone] ++ [] := by decide

theorem witness_CloseFollowsItsRule :
    up.join = none ∧ up.seqStep = .idle ∧ (sequencing .wait1).join = none ∧ (sequencing .wait1).seqStep ≠ .idle ∧
      (sequencing .wait1).seqReq = some 7 ∧ up.rxMode = .stopped ∧ midBody.rxMode ≠ .stopped ∧
      ({ up with join := some ⟨3, .closing⟩ } : State).join = some ⟨3, .closing⟩ := by decide

theorem witness_OpenFollowsItsRule :
    up.join = none ∧ up.seqStep = .idle ∧ (sequencing .wait1).join = none ∧ (sequencing .wait1).seqStep ≠ .idle ∧
      (sequencing .wait1).seqReq = some 7 ∧ up.rxMode = .stopped ∧ midBody.rxMode ≠ .stopped ∧
      ({ up with join := some ⟨3, .opening⟩ } : State).join = some ⟨3, .opening⟩ := by decide

/-- A cancelled deframer in the middle of a body, with a `CLOSE` of requester 3 held and a `CLOSE` of requester 1 next. -/
def cancelled : State :=
  { midBody with cancel := true, join := some ⟨3, .closing⟩, reqPort := [⟨1, .closeSession⟩], agenda := [.serve 1] }

theorem witness_SecondJoinIsHeld : cancelled.join ≠ none := by decide

theorem test_close_isHeldWhileOneIs :
    step cancelled = .next { cancelled with agenda := [], serving := 1 } := by rfl

theorem witness_CancelledAttemptRunsOut :
    Legal cancelled ∧ cancelled.cancel = true ∧ cancelled.rxMode ≠ .stopped ∧ (∃ t, step cancelled = .next t) ∧
      cancelled.join ≠ none ∧ Legal { cancelled with rxMode := .stopped, bodyBuf := [] } :=
  ⟨by unfold Legal; decide, rfl, by decide, ⟨_, rfl⟩, by decide, by unfold Legal; decide⟩

theorem witness_CancelledAttemptRunsOut_deframer :
    let s := { midBody with cancel := true, rxq := [0x00#8], agenda := [.deframer] }
    let h := { openWith [] with cancel := true, agenda := [.deframer] }
    Legal s ∧ s.cancel = true ∧ s.rxMode ≠ .stopped ∧ s.agenda = .deframer :: [] ∧ deframerEnabled s = true ∧
      Legal h ∧ h.cancel = true ∧ h.rxMode ≠ .stopped ∧ h.agenda = .deframer :: [] ∧ deframerEnabled h = true := by
  unfold Legal; decide

theorem witness_CancelledAttemptRunsOut_timeout :
    let s := { openWith [] with hdrBuf := [0x5A#8], cancel := true, agenda := [.rxTimeout] }
    Legal s ∧ s.cancel = true ∧ s.rxMode ≠ .stopped ∧ s.agenda = .rxTimeout :: [] ∧ rxTimeoutEnabled s = true := by
  unfold Legal; decide

/-- `n` times a byte that arrives, a turn of the request agent and a round. -/
def busyRounds : Nat → List Turn
  | 0 => []
  | n + 1 => .rxByte 0x5A#8 :: .serve 1 :: .deframer :: .rxTimeout :: busyRounds n

theorem rounds_busyRounds (n : Nat) : rounds (busyRounds n) = n := by
  induction n with
  | zero => rfl
  | succ n ih => simp [busyRounds, rounds, ih]

theorem complete_not_mem_busyRounds (n : Nat) : Turn.complete ∉ busyRounds n := by
  induction n with
  | zero => simp [busyRounds]
  | succ n ih => simp [busyRounds, ih]

theorem witness_CancelledDeframerStops :
    Legal { cancelled with agenda := busyRounds 65541 ++ [.complete] } ∧ cancelled.cancel = true ∧
      Turn.complete ∉ busyRounds 65541 ∧ 65541 ≤ rounds (busyRounds 65541) ∧ cancelled.join = some ⟨3, .closing⟩ :=
  ⟨by
    have h : Legal cancelled := by unfold Legal; decide
    exact h, rfl, complete_not_mem_busyRounds _, (rounds_busyRounds _).ge, rfl⟩

theorem witness_StatusCodesAreTheSpecs : 0x09 ≤ (0x09#8 : Byte).toNat ∧ (0x0F#8 : Byte).toNat ≤ 0x0F := by decide

theorem witness_DispatcherStatusesAreNeverRaised : OnlyBlockStatuses midHeader ∧ ∃ t, step midHeader = .next t :=
  ⟨by unfold OnlyBlockStatuses; decide, _, rfl⟩

theorem witness_EveryRequestGetsOneReply :
    Legal (presents .radioId) ∧ (∃ t, step (presents .radioId) = .next t) ∧
      (∀ r i rest, (presents .radioId).agenda ≠ .present r i :: rest) :=
  ⟨by unfold Legal; decide, ⟨_, rfl⟩, by intro _ _ _ h; cases h⟩

theorem witness_EveryRequestGetsOneReply_presenting :
    let s := { up with agenda := [.present 1 .radioId] }
    Legal s ∧ (∃ t, step s = .next t) ∧ s.agenda = .present 1 .radioId :: [] :=
  ⟨by unfold Legal; decide, ⟨_, rfl⟩, rfl⟩

theorem witness_EvqIsAFifo : ∃ t, step { up with evq := [.cmdSent []], agenda := [.takeEv] } = .next t := ⟨_, rfl⟩

theorem witness_SharedRegistersHaveTheirWriters :
    (∃ t, step { presents (.crcByte 0xAB) with crcAcc := 0x0000#16 } = .next t ∧ t.crcAcc ≠ 0x0000#16) ∧
      (∃ t, step { up with agenda := [.setLink false] } = .next t ∧ t.link ≠ up.link) ∧
      (∃ t, step { up with agenda := [.setDataMode true] } = .next t ∧ t.dataModeActive ≠ up.dataModeActive) ∧
      (∃ t, step (presents .closeSession) = .next t ∧ t.cancel ≠ up.cancel) ∧
      (∃ t, step { up with cancel := true, join := some ⟨1, .opening⟩, agenda := [.complete] } = .next t ∧
        t.cancel ≠ true) :=
  ⟨⟨_, rfl, by decide +kernel⟩, ⟨_, rfl, by decide⟩, ⟨_, rfl, by decide⟩, ⟨_, rfl, by decide⟩, ⟨_, rfl, by decide⟩⟩

end Sys2Proof.Tests
end

section
/-! The state after reset (10_state.md R41). -/

namespace Sys2Proof.Proofs

/-- Settles O1: power-on writes each of these fields as a constant, and none of them is one of the two inputs but
`LINK`, which `State.reset` takes as 0. -/
theorem resetLeavesTheBlockIdle : Obligations.ResetLeavesTheBlockIdle := by
  unfold Obligations.ResetLeavesTheBlockIdle
  -- the deframer and the shared registers, the sequencer, the queues, and the requests in service
  exact ⟨rfl, rfl, rfl, rfl, rfl, rfl,
    rfl, rfl, rfl,
    rfl, rfl, rfl,
    rfl, rfl, rfl⟩

end Sys2Proof.Proofs
end

section
/-! The framer: the frame of a payload (40_framer.md R112) and `SEND_RAW` (R110). -/

namespace Sys2Proof.Proofs

open Sys2Proof.Machine Sys2Proof.Safety

/-- The two LEN bytes of a frame, read back, are the length modulo 65536. -/
theorem be16Val_lenBytes (n : Nat) :
    be16Val (BitVec.ofNat 8 (n / 256)) (BitVec.ofNat 8 n) = BitVec.ofNat 16 n := by
  rw [be16Val_append]
  apply BitVec.eq_of_toNat_eq
  rw [BitVec.toNat_append, ← Nat.shiftLeft_add_eq_or_of_lt (BitVec.isLt _)]
  simp only [BitVec.toNat_ofNat, Nat.shiftLeft_eq]
  omega

/-- Behind the marker and LEN stands the payload, byte by byte (R73: no stuffing). -/
theorem wireFrame_payload (p : List Byte) : ((wireFrame p).drop 4).take p.length = p := by
  simp [wireFrame]

/-- The third and the fourth byte of a frame are LEN. -/
theorem wireFrame_len (p : List Byte) :
    be16Val ((wireFrame p).getD 2 0) ((wireFrame p).getD 3 0) = BitVec.ofNat 16 p.length :=
  be16Val_lenBytes p.length

/-- Settles O12. The frame is the wire frame, of which each part is a lemma. The bound on the length is not used: the
model's LEN is the length modulo 65536, which for a longer payload is no longer its length. -/
theorem frameCarriesThePayloadVerbatim : Obligations.FrameCarriesThePayloadVerbatim := by
  intro p _
  rw [frameEncode_eq]
  exact ⟨rfl, wireFrame_length p, wireFrame_payload p, wireFrame_len p⟩

/-- `SEND_RAW` of a payload that fits LEN is `Transmit`. -/
theorem exec_sendRaw_fits {p : List Byte} (s : State) (h : p.length ≤ 65535) :
    exec (.sendRaw p) s = .next (transmit p s) := by
  rw [exec, execSendRaw, if_neg (Nat.not_lt.2 h)]

/-- `SEND_RAW` of a longer payload is answered before the link is looked at. -/
theorem exec_sendRaw_tooLong {p : List Byte} (s : State) (h : 65535 < p.length) :
    exec (.sendRaw p) s = .next (afterReply s .invalidArgument (.operand 0)) := by
  rw [exec, execSendRaw, if_pos h, raiseReply_eq]

/-- Settles O26, by what `Transmit` does with the link up and with the link down. -/
theorem sendRawFollowsItsRule : Obligations.SendRawFollowsItsRule := by
  intro p s
  refine ⟨fun hp hl => ?_, fun hp hl => ?_, exec_sendRaw_tooLong s⟩
  · rw [exec_sendRaw_fits s hp, transmit_up p hl]
  · rw [exec_sendRaw_fits s hp, transmit_down p hl]

end Sys2Proof.Proofs
end

section
/-! What enables the deframer's steps and the read timeout (40_framer.md R113 to R125), and which step a turn then is. -/

namespace Sys2Proof.Proofs

open Sys2Proof.Machine Sys2Proof.Safety Sys2Proof.Config

/-! ## The enabling conditions -/

theorem rxAvail_iff (s : State) : rxAvail s = true ↔ s.link = true ∧ s.rxq ≠ [] := by
  simp [rxAvail]

theorem rxAvail_eq_false_iff (s : State) : rxAvail s = false ↔ s.link = false ∨ s.rxq = [] := by
  rw [rxAvail, Bool.and_eq_false_iff]
  simp

theorem dfCancelEnabled_iff (s : State) :
    dfCancelEnabled s = true ↔ s.rxMode = .hdr ∧ s.hdrBuf = [] ∧ s.cancel = true := by
  simp [dfCancelEnabled, and_assoc]

theorem linkDownEnabled_iff (s : State) :
    linkDownEnabled s = true ↔ s.rxMode = .hdr ∧ s.hdrBuf = [] ∧ s.cancel = false ∧ s.link = false := by
  simp [linkDownEnabled, and_assoc]

theorem rxTimeoutEnabled_iff (s : State) :
    rxTimeoutEnabled s = true ↔ s.rxMode ≠ .stopped ∧ rxAvail s = false := by
  simp [rxTimeoutEnabled]

/-! ## A deframer turn that takes no byte -/

/-- With no step enabled the deframer holds. -/
theorem deframerStep_hold (P : Params) {s : State} (h : deframerEnabled s = false) : deframerStep P s = s := by
  simp only [deframerEnabled, Bool.or_eq_false_iff] at h
  obtain ⟨⟨⟨hHdr, hBody⟩, hCancel⟩, hDown⟩ := h
  simp [deframerStep, hHdr, hBody, hCancel, hDown]

/-- With no byte available the taking steps are disabled, and so are the other two in BODY, inside a header, and with
the link up and `CANCEL` clear. -/
theorem deframerEnabled_noByte {s : State} (ha : rxAvail s = false)
    (h : s.rxMode = .body ∨ s.hdrBuf ≠ [] ∨ (s.cancel = false ∧ s.link = true)) : deframerEnabled s = false := by
  have hHdr : takeHdrEnabled s = false := by simp [takeHdrEnabled, ha]
  have hBody : takeBodyEnabled s = false := by simp [takeBodyEnabled, ha]
  rcases h with hm | hb | ⟨hc, hl⟩
  · simp [deframerEnabled, hHdr, hBody, dfCancelEnabled, linkDownEnabled, hm]
  · simp [deframerEnabled, hHdr, hBody, dfCancelEnabled, linkDownEnabled, hb]
  · simp [deframerEnabled, hHdr, hBody, dfCancelEnabled, linkDownEnabled, hc, hl]

/-- In STOPPED no step is enabled: each asks for HDR or BODY. -/
theorem deframerEnabled_stopped {s : State} (hm : s.rxMode = .stopped) : deframerEnabled s = false := by
  simp [deframerEnabled, takeHdrEnabled, takeBodyEnabled, dfCancelEnabled, linkDownEnabled, hm]

/-- Where `DF_CANCEL` is enabled the turn is it: `DF_TAKE_HDR` is disabled in the same condition (R121). -/
theorem deframerStep_dfCancel (P : Params) {s : State} (h : dfCancelEnabled s = true) :
    deframerStep P s = dfCancel s := by
  obtain ⟨hm, hb, hc⟩ := (dfCancelEnabled_iff s).1 h
  have hHdr : takeHdrEnabled s = false := by simp [takeHdrEnabled, hb, hc]
  have hBody : takeBodyEnabled s = false := by simp [takeBodyEnabled, hm]
  simp [deframerStep, hHdr, hBody, h]

/-- Where `DF_LINK_DOWN` is enabled the turn is it: no byte is available with the link down. -/
theorem deframerStep_dfLinkDown (P : Params) {s : State} (h : linkDownEnabled s = true) :
    deframerStep P s = dfLinkDown s := by
  obtain ⟨hm, hb, hc, hl⟩ := (linkDownEnabled_iff s).1 h
  have hHdr : takeHdrEnabled s = false := by simp [takeHdrEnabled, rxAvail, hl]
  have hBody : takeBodyEnabled s = false := by simp [takeBodyEnabled, hm]
  have hCancel : dfCancelEnabled s = false := by simp [dfCancelEnabled, hc]
  simp [deframerStep, hHdr, hBody, hCancel, h]

/-! ## The read timeout -/

/-- No timeout occurs while a byte is available. -/
theorem rxTimeout_of_avail (P : Params) {s : State} (hl : s.link = true) (hq : s.rxq ≠ []) : rxTimeout P s = s := by
  have ha : rxAvail s = true := (rxAvail_iff s).2 ⟨hl, hq⟩
  simp [rxTimeout, rxTimeoutEnabled, ha]

/-- No timeout occurs in STOPPED. -/
theorem rxTimeout_stopped (P : Params) {s : State} (hm : s.rxMode = .stopped) : rxTimeout P s = s := by
  simp [rxTimeout, rxTimeoutEnabled, hm]

/-- A timeout in HDR. -/
theorem rxTimeout_hdr (P : Params) {s : State} (hm : s.rxMode = .hdr) (hn : s.link = false ∨ s.rxq = []) :
    rxTimeout P s = hdrTimeout P s := by
  have he : rxTimeoutEnabled s = true :=
    (rxTimeoutEnabled_iff s).2 ⟨by simp [hm], (rxAvail_eq_false_iff s).2 hn⟩
  simp [rxTimeout, he, hm]

/-- A timeout in BODY. -/
theorem rxTimeout_body (P : Params) {s : State} (hm : s.rxMode = .body) (hn : s.link = false ∨ s.rxq = []) :
    rxTimeout P s = bodyTimeout s := by
  have he : rxTimeoutEnabled s = true :=
    (rxTimeoutEnabled_iff s).2 ⟨by simp [hm], (rxAvail_eq_false_iff s).2 hn⟩
  simp [rxTimeout, he, hm]

/-- R122 with `CANCEL` set. -/
theorem hdrTimeout_cancel (P : Params) {s : State} (hc : s.cancel = true) :
    hdrTimeout P s = raiseEvent .cancelled .none { s with hdrBuf := [], rxMode := .stopped } := by
  simp [hdrTimeout, hc]

/-- R122 with an empty header, or with a partial one that `P_HDR_SHORT` keeps. -/
theorem hdrTimeout_keep (P : Params) {s : State} (hc : s.cancel = false) (hb : s.hdrBuf = [] ∨ P.hdrShort = .keep) :
    hdrTimeout P s = s := by
  rcases hb with hb | hb <;> simp [hdrTimeout, hc, hb]

/-- R122 with a partial header that `P_HDR_SHORT` discards. -/
theorem hdrTimeout_discard (P : Params) {s : State} (hc : s.cancel = false) (hb : s.hdrBuf ≠ [])
    (hp : P.hdrShort = .discard) :
    hdrTimeout P s = raiseEvent .headerMismatch (.header s.hdrBuf) { s with hdrBuf := [] } := by
  simp [hdrTimeout, hc, hb, hp]

/-! ## Delivery -/

/-- Delivery of a frame with `FR_LEN` at least 1 (R117). -/
theorem deliver_payload (P : Params) {s : State} (h : s.frLen ≠ 0x0000#16) :
    deliver P s = { s with
      bodyBuf := [], rxMode := .hdr
      evq := s.evq ++ [.payload (s.frCode :: s.bodyBuf.take (s.frLen.toNat - 1))] } := by
  unfold deliver
  rw [if_neg h]
  rfl

/-- Delivery of a frame with `FR_LEN = 0` under `P_LEN0 = DELIVER` (R120): the code byte alone. -/
theorem deliver_len0_deliver (P : Params) {s : State} (h : s.frLen = 0x0000#16) (hp : P.len0 = .deliver) :
    deliver P s = { s with bodyBuf := [], rxMode := .hdr, evq := s.evq ++ [.payload [s.frCode]] } := by
  unfold deliver
  rw [if_pos h, deliverLen0, hp]
  rfl

/-- Delivery of a frame with `FR_LEN = 0` under `P_LEN0 = DISCARD` (R120): the status alone. -/
theorem deliver_len0_discard (P : Params) {s : State} (h : s.frLen = 0x0000#16) (hp : P.len0 = .discard) :
    deliver P s = { s with bodyBuf := [], rxMode := .hdr, evq := s.evq ++ [.status .emptyFrame .none] } := by
  unfold deliver
  rw [if_pos h, deliverLen0, hp]
  rfl

/-! ## Which steps stop the deframer -/

/-- The header check does not stop the deframer. -/
theorem headerCheck_keeps_running {s : State} (hr : s.rxMode ≠ .stopped) : (headerCheck s).rxMode ≠ .stopped := by
  unfold headerCheck
  split
  · split
    · exact hr
    · simp
  · exact hr

/-- Taking a header byte does not stop the deframer. -/
theorem takeHdr_keeps_running {s : State} (hr : s.rxMode ≠ .stopped) : (takeHdr s).rxMode ≠ .stopped := by
  unfold takeHdr
  split
  · exact hr
  · exact headerCheck_keeps_running hr

/-- Taking a body byte does not stop the deframer: it stays in BODY or delivery goes back to HDR. -/
theorem takeBody_keeps_running (P : Params) {s : State} (hr : s.rxMode ≠ .stopped) :
    (takeBody P s).rxMode ≠ .stopped := by
  unfold takeBody
  split
  · exact hr
  · dsimp only
    split
    · simp [deliver]
    · exact hr

/-- A turn that stops a running deframer is `DF_CANCEL`. -/
theorem dfCancelEnabled_of_stops (P : Params) {s : State} (hr : s.rxMode ≠ .stopped)
    (hs : (deframerStep P s).rxMode = .stopped) : dfCancelEnabled s = true := by
  rcases deframerStep_cases P s with ⟨_, h⟩ | ⟨_, h⟩ | ⟨he, _⟩ | ⟨_, h⟩ | h
  · exact absurd (h ▸ hs) (takeHdr_keeps_running hr)
  · exact absurd (h ▸ hs) (takeBody_keeps_running P hr)
  · exact he
  · rw [h] at hs; exact absurd hs hr
  · rw [h] at hs; exact absurd hs hr

end Sys2Proof.Proofs
end

section
/-! The deframer (40_framer.md R114 to R125): each turn and each read timeout does what its rule says. -/

namespace Sys2Proof.Proofs

open Sys2Proof.Machine Sys2Proof.Safety Sys2Proof.Config

/-- Settles O29: a turn with a byte available is `DF_TAKE_HDR`, and the header check is known for fewer than five bytes
and for five; with no byte available no step is enabled. -/
theorem headerBytesAreTakenAndChecked : Obligations.HeaderBytesAreTakenAndChecked := by
  intro P s hm hc
  refine ⟨?early, ?mismatch, ?marker, ?midHeader, ?waiting⟩
  case early =>
    intro b rest hl hq hn
    rw [deframerStep_takeHdr P hm hl hq (by omega) hc, headerCheck_short (by simp; omega)]
  case mismatch =>
    intro m0 m1 hi lo code rest hl hq hb hbad
    have hfull : s.hdrBuf ++ [code] = [m0, m1, hi, lo, code] := by rw [hb]; rfl
    rw [deframerStep_takeHdr P hm hl hq (by simp [hb]) hc, headerCheck_full hfull, if_neg (by tauto)]
    rfl
  case marker =>
    intro hi lo code rest hl hq hb
    have hfull : s.hdrBuf ++ [code] = [0x5A#8, 0xA5#8, hi, lo, code] := by rw [hb]; rfl
    rw [deframerStep_takeHdr P hm hl hq (by simp [hb]) hc, headerCheck_full hfull, if_pos ⟨rfl, rfl⟩,
      acceptHeader, be16Val_append]
  case midHeader =>
    intro hn hb
    exact deframerStep_hold P (deframerEnabled_noByte ((rxAvail_eq_false_iff s).2 hn.symm) (.inr (.inl hb)))
  case waiting =>
    intro hq hl
    have ha : rxAvail s = false := (rxAvail_eq_false_iff s).2 (.inr hq)
    exact deframerStep_hold P (deframerEnabled_noByte ha (.inr (hc.imp_right fun h => ⟨h, hl⟩)))

/-- Settles O30: a turn with a byte available is `DF_TAKE_BODY`, which delivers exactly when the byte is number
`FR_LEN + 1`; delivery is split at `FR_LEN = 0`. -/
theorem bodyBytesAreTakenAndDelivered : Obligations.BodyBytesAreTakenAndDelivered := by
  intro P s hm
  refine ⟨?partialBody, ?complete, ?len0, ?noByte⟩
  case partialBody =>
    intro b rest hl hq hn
    rw [deframerStep_takeBody P hm hl hq (by omega), if_neg (by omega)]
  case complete =>
    intro b rest hl hq hn hpos
    have hlen : s.frLen ≠ 0x0000#16 := by
      intro h0
      simp [h0] at hpos
    rw [deframerStep_takeBody P hm hl hq (by omega), if_pos hn, deliver_payload P]
    exact hlen
  case len0 =>
    intro b rest hl hq hb h0
    have hstep : deframerStep P s = deliver P { s with rxq := rest, bodyBuf := s.bodyBuf ++ [b] } := by
      rw [deframerStep_takeBody P hm hl hq (by simp [hb]), if_pos (by simp [hb, h0])]
    rw [hstep, hb]
    exact ⟨deliver_len0_deliver P h0, deliver_len0_discard P h0⟩
  case noByte =>
    intro hn
    exact deframerStep_hold P (deframerEnabled_noByte ((rxAvail_eq_false_iff s).2 hn.symm) (.inl hm))

/-- Settles O31: at an attempt's start with `CANCEL` set the turn is `DF_CANCEL`, and no other step goes to STOPPED. -/
theorem cancelStopsTheDeframerAtAnAttemptsStart : Obligations.CancelStopsTheDeframerAtAnAttemptsStart := by
  intro P s
  constructor
  · intro hm hb hc
    rw [deframerStep_dfCancel P ((dfCancelEnabled_iff s).2 ⟨hm, hb, hc⟩)]
    rfl
  · exact fun hr hs => (dfCancelEnabled_iff s).1 (dfCancelEnabled_of_stops P hr hs)

/-- Settles O32: the turn is `DF_LINK_DOWN`, which only appends its event. -/
theorem linkDownIsReportedAtAnAttemptsStart : Obligations.LinkDownIsReportedAtAnAttemptsStart := by
  intro P s hm hb hc hl
  rw [deframerStep_dfLinkDown P ((linkDownEnabled_iff s).2 ⟨hm, hb, hc, hl⟩)]
  rfl

/-- Settles O33, one branch of R122 after the other. -/
theorem headerTimeoutFollowsItsRule : Obligations.HeaderTimeoutFollowsItsRule := by
  intro P s hm
  refine ⟨rxTimeout_of_avail P, fun hn hc => ?_, fun hn hc hb => ?_, fun hn hc hb hp => ?_⟩
  · rw [rxTimeout_hdr P hm hn, hdrTimeout_cancel P hc]
    rfl
  · rw [rxTimeout_hdr P hm hn, hdrTimeout_keep P hc hb]
  · rw [rxTimeout_hdr P hm hn, hdrTimeout_discard P hc hb hp]
    rfl

/-- Settles O34: without a byte the timeout is the one of BODY; with one it is not enabled. -/
theorem bodyTimeoutDiscardsThePartialBody : Obligations.BodyTimeoutDiscardsThePartialBody := by
  intro P s hm
  refine ⟨rxTimeout_of_avail P, fun hn => ?_⟩
  rw [rxTimeout_body P hm hn]
  rfl

/-- Settles O35: STOPPED enables neither a step nor the timeout, and an arriving byte leaves the mode. -/
theorem stoppedDeframerHolds : Obligations.StoppedDeframerHolds := by
  intro P s hm
  have holds : ∀ t : State, t.rxMode = .stopped → deframerStep P t = t :=
    fun t ht => deframerStep_hold P (deframerEnabled_stopped ht)
  exact ⟨holds s hm, rxTimeout_stopped P hm, fun b => holds { s with rxq := s.rxq ++ [b] } hm⟩

end Sys2Proof.Proofs
end

section
/-! The checksum unit (41_checksum.md R152 to R160): what each of its requests does, said once, for every state. -/

namespace Sys2Proof.Proofs

open Sys2Proof.Machine Sys2Proof.Safety

/-! ## The streaming requests and `CRC_COMPUTE` -/

theorem exec_crcInit (s : State) :
    exec .crcInit s = .next { afterReply s .ok .none with crcAcc := 0xFFFF#16 } := rfl

/-- `CRC_BYTE` of a byte in range: its range check passes. -/
theorem exec_crcByte_inRange {b : Int} (s : State) (h0 : 0 ≤ b) (h1 : b ≤ 255) :
    exec (.crcByte b) s = .next { afterReply s .ok .none with crcAcc := crcStep s.crcAcc (BitVec.ofInt 8 b) } := by
  have hok : ¬ u8Fails b = true := by
    rw [u8Fails_iff]
    omega
  rw [exec, execCrcByte, if_neg hok]
  rfl

/-- `CRC_BYTE` of a byte out of range is a reply and nothing else. -/
theorem exec_crcByte_outOfRange {b : Int} (s : State) (h : b < 0 ∨ 255 < b) :
    exec (.crcByte b) s = .next (afterReply s .invalidArgument (.operand 0)) := by
  rw [exec, execCrcByte, if_pos ((u8Fails_iff b).2 h), raiseReply_eq]

theorem exec_crcRead (s : State) :
    exec .crcRead s = .next (afterReply s .ok (.crc (s.crcAcc ^^^ 0xFFFF#16))) := rfl

theorem exec_crcCompute (data : List Byte) (s : State) :
    exec (.crcCompute data) s = .next (afterReply s .ok (.crc (crc16Genibus data))) := rfl

/-! ## The validator -/

theorem u16Fails_iff (v : Int) : u16Fails v = true ↔ v < 0 ∨ 65535 < v := by
  simp [u16Fails]

/-- A checksum in range is the value of its 16-bit word, so a word equals it exactly when their values are equal. -/
theorem eq_ofInt16_iff {c : Int} (w : Word16) (h0 : 0 ≤ c) (h1 : c ≤ 65535) :
    w = BitVec.ofInt 16 c ↔ w.toNat = c.toNat := by
  have hval : (BitVec.ofInt 16 c).toNat = c.toNat := by
    rw [BitVec.toNat_ofInt]
    omega
  rw [← hval, BitVec.toNat_inj]

/-- `CRC_VALIDATE` of a checksum in range compares the two words. -/
theorem exec_crcValidate_inRange (data : List Byte) {c : Int} (s : State) (h0 : 0 ≤ c) (h1 : c ≤ 65535) :
    exec (.crcValidate data c) s =
      .next (afterReply s (if crc16Genibus data = BitVec.ofInt 16 c then .ok else .checksumMismatch)
        (.checksums (BitVec.ofInt 16 c) (crc16Genibus data))) := by
  have hok : ¬ u16Fails c = true := by
    rw [u16Fails_iff]
    omega
  rw [exec, execCrcValidate, if_neg hok]
  dsimp only
  split
  · rw [reply_eq]
  · rw [raiseReply_eq]

/-- `CRC_VALIDATE` of a checksum out of range is answered whatever the data. -/
theorem exec_crcValidate_outOfRange (data : List Byte) {c : Int} (s : State) (h : c < 0 ∨ 65535 < c) :
    exec (.crcValidate data c) s = .next (afterReply s .invalidArgument (.operand 1)) := by
  rw [exec, execCrcValidate, if_pos ((u16Fails_iff c).2 h), raiseReply_eq]

/-! ## The rules -/

/-- Settles O39, by what each request does; `CRC_BYTE` is split at its range check. -/
theorem checksumRequestsFollowTheirRules : Obligations.ChecksumRequestsFollowTheirRules := fun s =>
  ⟨exec_crcInit s, fun _ => exec_crcByte_inRange s, fun _ => exec_crcByte_outOfRange s, exec_crcRead s,
    fun data => exec_crcCompute data s⟩

/-- Settles O40: in range the reply follows the comparison of the two words, which is the comparison of their values. -/
theorem validatorFollowsItsRule : Obligations.ValidatorFollowsItsRule := by
  intro data c s
  refine ⟨fun h0 h1 heq => ?_, fun h0 h1 hne => ?_, exec_crcValidate_outOfRange data s⟩
  · have hw := (eq_ofInt16_iff _ h0 h1).2 heq
    rw [exec_crcValidate_inRange data s h0 h1, if_pos hw, ← hw]
  · rw [exec_crcValidate_inRange data s h0 h1, if_neg (mt (eq_ofInt16_iff _ h0 h1).1 hne)]

end Sys2Proof.Proofs
end

section
/-! The command encoder (42_command_encoder.md R180 to R210): every command request is the common procedure over the
encoder's payload, said once, and the rules of the commands follow from the encoder's rows. -/

namespace Sys2Proof.Proofs

open Sys2Proof.Machine Sys2Proof.Safety Sys2Proof.Config

/-! ## A command request and the encoder -/

/-- The `u8` operands of a command, each with its operand index (R78's operand column). -/
def u8Operands : Instr → List (Nat × Int)
  | .powerUp a b c _ => [(0, a), (1, b), (2, c)]
  | .changeChannel _ ch _ pt => [(1, ch), (3, pt)]
  | .cancelChannel ch _ => [(0, ch)]
  | .extInfo ch => [(0, ch)]
  | .channelInfo _ ch pt => [(1, ch), (2, pt)]
  | .dataSelect sid _ _ => [(0, sid)]
  | .channelMonitor ch _ _ _ _ _ => [(0, ch)]
  | _ => []

/-- A request with a payload is served by the common procedure (R180), over the payload the encoder gives under the
`DATA_MODE_ACTIVE` of the accepting step. The host operations have no payload. -/
theorem exec_of_encode {i : Instr} {s : State} {p : List Byte}
    (hp : encode Config.params s.dataModeActive i = some p) : exec i s = .next (serveCommand (u8Operands i) p s) := by
  cases i with
  | sendRaw | crcInit | crcByte | crcRead | crcCompute | crcValidate | directEnable | openSession | closeSession =>
    cases hp
  | dataFwVersion =>
    have hq : Config.params.dataFwPayload = some p := hp
    rw [exec, execDataFwVersion, dataFwVersion, hq]
    rfl
  | auxToggle t =>
    have hq : Config.params.auxPrefix.map (· ++ [encBool t]) = some p := hp
    rw [exec, execAuxToggle, auxToggle, hq]
    rfl
  | _ => cases hp; rfl

/-- The range-checked operands of a request with a payload are its `u8` operands. -/
theorem ranges_of_encode {P : Params} {dataMode : Bool} {i : Instr} {p : List Byte}
    (hp : encode P dataMode i = some p) : i.ranges = (u8Operands i).map (fun o => (o.1, inU8 o.2)) := by
  cases i with
  | sendRaw | crcInit | crcByte | crcRead | crcCompute | crcValidate | directEnable | openSession | closeSession =>
    cases hp
  | _ => rfl

/-- A request with a payload follows the command rule with that payload. -/
theorem commandRule_of_encode {i : Instr} {payload : State → List Byte}
    (hp : ∀ s : State, encode Config.params s.dataModeActive i = some (payload s)) :
    CommandRule i (u8Operands i) payload :=
  commandRule_of_serve fun s => exec_of_encode (hp s)

/-! ## The rules of the commands -/

/-- Settles O13, by the encoder's rows of the two commands. -/
theorem powerCommandsFollowTheirRules : Obligations.PowerCommandsFollowTheirRules :=
  ⟨fun a b c loss => commandRule_of_encode (i := .powerUp a b c loss) fun _ => rfl,
    fun save => commandRule_of_encode (i := .powerDown save) fun _ => rfl⟩

theorem gainMin_le_gainMax (P : Params) : P.gainMin ≤ P.gainMax :=
  Int.le_add_of_nonneg_right (Int.natCast_nonneg P.gainSpan)

/-- Settles O14: the encoder's row, and the clamp as a minimum of a maximum. -/
theorem setLineLevelClampsAndSends : Obligations.SetLineLevelClampsAndSends := by
  refine ⟨fun gain => commandRule_of_encode (i := .setLineLevel gain) fun _ => rfl,
    fun P gain => ⟨?lower, ?upper, ?inside, ?below, ?above⟩⟩ <;> unfold clampGain
  case lower => exact le_min (le_max_right _ _) (gainMin_le_gainMax P)
  case upper => exact min_le_right _ _
  case inside =>
    intro hmin hmax
    rw [max_eq_left hmin, min_eq_left hmax]
  case below =>
    intro hmin
    rw [max_eq_right hmin, min_eq_left (gainMin_le_gainMax P)]
  case above =>
    intro hmax
    exact min_eq_right (le_max_of_le_left hmax)

theorem routeByte_eq (d : Bool) : routeByte d = if d then 0x02#8 else 0x01#8 := by
  cases d <;> rfl

/-- Settles O15, by the encoder's rows; the route byte is known for both data flags. -/
theorem channelCommandsFollowTheirRules : Obligations.ChannelCommandsFollowTheirRules := by
  refine ⟨fun sid ch d pt => ?change, fun ch d => commandRule_of_encode (i := .cancelChannel ch d) fun _ => rfl,
    fun ch => commandRule_of_encode (i := .extInfo ch) fun _ => rfl,
    fun sid ch pt => commandRule_of_encode (i := .channelInfo sid ch pt) fun _ => rfl⟩
  rw [← routeByte_eq]
  exact commandRule_of_encode (i := .changeChannel sid ch d pt) fun _ => rfl

/-- Settles O16, by the encoder's rows. -/
theorem toggleCommandsFollowTheirRules : Obligations.ToggleCommandsFollowTheirRules := fun on =>
  ⟨commandRule_of_encode (i := .mute on) fun _ => rfl, commandRule_of_encode (i := .signalMonitor on) fun _ => rfl,
    commandRule_of_encode (i := .clockMonitor on) fun _ => rfl,
    commandRule_of_encode (i := .diagMonitor on) fun _ => rfl⟩

/-- Settles O17, by the encoder's rows. -/
theorem queryCommandsFollowTheirRules : Obligations.QueryCommandsFollowTheirRules :=
  ⟨commandRule_of_encode (i := .radioId) fun _ => rfl, commandRule_of_encode (i := .signalInfo) fun _ => rfl,
    commandRule_of_encode (i := .fwVersion) fun _ => rfl⟩

/-- Settles O18, by the encoder's rows. -/
theorem dataModeCommandsFollowTheirRules : Obligations.DataModeCommandsFollowTheirRules :=
  ⟨fun sid f1 f2 => commandRule_of_encode (i := .dataSelect sid f1 f2) fun _ => rfl,
    commandRule_of_encode (i := .dataPing) fun _ => rfl⟩

theorem chmonSelect_true (P : Params) : chmonSelect P true = P.chmonOp1 := rfl

theorem chmonSelect_false (P : Params) : chmonSelect P false = chmonOther P.chmonOp1 := rfl

/-- Settles O19: the encoder's row under the accepting state's data mode, and the selector at both of its values. -/
theorem channelMonitorFollowsItsRule : Obligations.ChannelMonitorFollowsItsRule := by
  refine ⟨fun ch sv ty inf ext ov => commandRule_of_encode (i := .channelMonitor ch sv ty inf ext ov) fun _ => rfl,
    fun P => ⟨fun h => ?op50, fun h => ?op4F⟩⟩
  case op50 => rw [chmonSelect_true, chmonSelect_false, h]; exact ⟨rfl, rfl⟩
  case op4F => rw [chmonSelect_true, chmonSelect_false, h]; exact ⟨rfl, rfl⟩

/-- Settles O20, by the encoder's rows. -/
theorem directCommandsFollowTheirRules : Obligations.DirectCommandsFollowTheirRules :=
  ⟨commandRule_of_encode (i := .directListen) fun _ => rfl,
    fun f1 f2 => commandRule_of_encode (i := .directPower f1 f2) fun _ => rfl,
    commandRule_of_encode (i := .directUnmute) fun _ => rfl⟩

/-! ## The commands whose payload is a parameter -/

theorem exec_dataFwVersion (s : State) :
    exec .dataFwVersion s = .next (serveParameter .dataFwVersion Config.params.dataFwPayload s) := rfl

theorem exec_auxToggle (on : Bool) (s : State) :
    exec (.auxToggle on) s =
      .next (serveParameter .auxToggle (Config.params.auxPrefix.map (· ++ [encBool on])) s) := rfl

theorem serveParameter_none (c : Unencoded) (s : State) :
    serveParameter c none s = afterReply s .refused (.command c) := rfl

theorem serveParameter_some (c : Unencoded) (p : List Byte) (s : State) :
    serveParameter c (some p) s = transmit p s := rfl

/-- Settles O21: each request is split at its parameter, and a given one at the link. -/
theorem parameterCommandsFollowTheirRules : Obligations.ParameterCommandsFollowTheirRules := by
  intro s
  refine ⟨?dataFw, fun on => ?aux, fun P on =>
    ⟨fun hp => ?dataFwNone, fun p hp hl => ?dataFwSome, fun hp => ?auxNone, fun p hp hl => ?auxSome⟩⟩
  case dataFw =>
    rw [exec_dataFwVersion]
    cases Config.params.dataFwPayload with
    | none => rfl
    | some p =>
      rw [serveParameter_some]
      cases hl : s.link with
      | true => rw [transmit_up p hl]
      | false => rw [transmit_down p hl]
  case aux =>
    rw [exec_auxToggle]
    cases Config.params.auxPrefix with
    | none => rfl
    | some p =>
      rw [Option.map_some, serveParameter_some]
      cases hl : s.link with
      | true => rw [transmit_up _ hl]; rfl
      | false => rw [transmit_down _ hl]
  case dataFwNone => rw [dataFwVersion, hp, serveParameter_none]
  case dataFwSome => rw [dataFwVersion, hp, serveParameter_some, transmit_up p hl]
  case auxNone => rw [auxToggle, hp, Option.map_none, serveParameter_none]
  case auxSome => rw [auxToggle, hp, Option.map_some, serveParameter_some, transmit_up _ hl]; rfl

end Sys2Proof.Proofs
end

section
/-! The direct-enable sequencer (42_command_encoder.md R220 to R225): the accepting step and each `DELAY_DONE`. -/

namespace Sys2Proof.Proofs

open Sys2Proof.Machine Sys2Proof.Safety Sys2Proof.Config

/-! ## The accepting step -/

/-- While a sequence runs `DIRECT_ENABLE` changes nothing (R221). -/
theorem directEnable_held (P : Params) (f1 f2 : Bool) {s : State} (hq : s.seqStep ≠ .idle) :
    directEnable P f1 f2 s = s := by
  unfold directEnable
  split
  · contradiction
  · rfl

/-- With the link up step 1 is sent and its reply is deferred (R220). -/
theorem directEnable_up (P : Params) (f1 f2 : Bool) {s : State} (hq : s.seqStep = .idle) (hl : s.link = true) :
    directEnable P f1 f2 s = { accept s with
      txq := s.txq ++ wireFrame (directPayload1 P)
      evq := s.evq ++ [.cmdSent (directPayload1 P)]
      seqF1 := f1, seqF2 := f2, seqStep := .wait1, seqReq := some s.serving } := by
  unfold directEnable
  rw [hq, sendFrame_up _ hl]
  rfl

/-- With the link down the request is answered with step 1's number. -/
theorem directEnable_down (P : Params) (f1 f2 : Bool) {s : State} (hq : s.seqStep = .idle) (hl : s.link = false) :
    directEnable P f1 f2 s = afterReply s .transportUnavailable (.seqStep 1) := by
  unfold directEnable
  rw [hq, sendFrame_down _ hl]
  rfl

/-! ## `DELAY_DONE` -/

/-- A middle step with the link up sends its frame (R222, R223). -/
theorem sequenceStep_up (k : Nat) (p : List Byte) (w : SeqStep) {s : State} (hl : s.link = true) :
    sequenceStep k p w s =
      { s with txq := s.txq ++ wireFrame p, evq := s.evq ++ [.cmdSent p], seqStep := w } := by
  rw [sequenceStep, sendFrame_up p hl]

/-- A middle step with the link down ends the sequence with its number (R225). -/
theorem sequenceStep_down (k : Nat) (p : List Byte) (w : SeqStep) {s : State} (hl : s.link = false) :
    sequenceStep k p w s = endSequence .transportUnavailable (.seqStep k) s := by
  rw [sequenceStep, sendFrame_down p hl]

/-- The end of a sequence gives its pending request its one reply. -/
theorem endSequence_pending (st : Status) (info : Info) {s : State} {r : Nat} (hr : s.seqReq = some r) :
    endSequence st info s =
      { s with seqStep := .idle, seqReq := none, replies := s.replies ++ [⟨r, st, info⟩] } := by
  rw [endSequence, hr]
  rfl

theorem delayDone_idle (P : Params) {s : State} (hq : s.seqStep = .idle) : delayDone P s = s := by
  rw [delayDone, hq]

theorem delayDone_wait1 (P : Params) {s : State} (hq : s.seqStep = .wait1) :
    delayDone P s = sequenceStep 2 (directPayload2 s.seqF1 s.seqF2) .wait2 s := by
  rw [delayDone, hq]

theorem delayDone_wait2 (P : Params) {s : State} (hq : s.seqStep = .wait2) :
    delayDone P s = sequenceStep 3 (directPayload3 P) .wait3 s := by
  rw [delayDone, hq]

theorem delayDone_wait3 (P : Params) {s : State} (hq : s.seqStep = .wait3) :
    delayDone P s = endSequence .ok
      (.payloads (directPayload1 P) (directPayload2 s.seqF1 s.seqF2) (directPayload3 P)) s := by
  rw [delayDone, hq]

/-- Settles O48, state by state of the sequencer; a middle step is split at the link. -/
theorem delayDoneTakesTheNextStep : Obligations.DelayDoneTakesTheNextStep := by
  intro P s
  refine ⟨delayDone_idle P, fun hq hl => ?sent2, fun hq hl => ?sent3, fun r hq hl hr => ?failed2,
    fun r hq hl hr => ?failed3, fun r hq hr => ?done⟩
  case sent2 => rw [delayDone_wait1 P hq, sequenceStep_up _ _ _ hl]; rfl
  case sent3 => rw [delayDone_wait2 P hq, sequenceStep_up _ _ _ hl]; rfl
  case failed2 => rw [delayDone_wait1 P hq, sequenceStep_down _ _ _ hl, endSequence_pending _ _ hr]
  case failed3 => rw [delayDone_wait2 P hq, sequenceStep_down _ _ _ hl, endSequence_pending _ _ hr]
  case done => rw [delayDone_wait3 P hq, endSequence_pending _ _ hr]; rfl

end Sys2Proof.Proofs
end

section
/-! The requests that are answered in their accepting step (all but `DIRECT_ENABLE`, `OPEN` and `CLOSE`): which of three
outcomes such a request has is settled by the request and the parameters, not by the state. -/

namespace Sys2Proof.Proofs

open Sys2Proof.Machine Sys2Proof.Safety

/-! ## The first failing operand -/

/-- For `u8` operands the first failing operand is the first out of range. -/
theorem firstFailing_of_u8 {i : Instr} {ops : List (Nat × Int)}
    (h : i.ranges = ops.map (fun o => (o.1, inU8 o.2))) : i.firstFailing = firstOutOfU8 ops := by
  have hsame : ((fun r : Nat × Bool => !r.2) ∘ fun o : Nat × Int => (o.1, inU8 o.2)) =
      fun o => decide (o.2 < 0 ∨ 255 < o.2) := by
    funext o
    simp only [Function.comp, inU8, ← decide_not, decide_eq_decide]
    omega
  rw [Instr.firstFailing, h, List.find?_map, hsame, firstOutOfU8, Option.map_map]
  rfl

/-- With one operand checked, in range. -/
theorem firstFailing_passes {i : Instr} {k : Nat} {b : Bool} (h : i.ranges = [(k, b)]) (hb : b = true) :
    i.firstFailing = none := by
  simp [Instr.firstFailing, h, hb]

/-- With one operand checked, out of range. -/
theorem firstFailing_fails {i : Instr} {k : Nat} {b : Bool} (h : i.ranges = [(k, b)]) (hb : b = false) :
    i.firstFailing = some k := by
  simp [Instr.firstFailing, h, hb]

/-! ## The three outcomes -/

/-- In every state the request is answered `INVALID_ARGUMENT` with its first failing operand. -/
def Rejected (i : Instr) : Prop :=
  ∃ k, i.firstFailing = some k ∧ ∀ s, exec i s = .next (afterReply s .invalidArgument (.operand k))

/-- In every state the request transmits a payload, which may depend on `DATA_MODE_ACTIVE`. -/
def Transmits (i : Instr) : Prop :=
  i.firstFailing = none ∧ ∃ payload : Bool → List Byte, ∀ s, exec i s = .next (transmit (payload s.dataModeActive) s)

/-- In every state the request gets a reply of one status, and all else it reads or writes is `CRC_ACC`. -/
def Answered (i : Instr) : Prop :=
  i.firstFailing = none ∧ ∃ (st : Status) (info : Word16 → Info) (acc : Word16 → Word16), st ≠ .invalidArgument ∧
    ∀ s, exec i s = .next { afterReply s st (info s.crcAcc) with crcAcc := acc s.crcAcc }

/-- A request that is answered with one reply and leaves `CRC_ACC`. -/
theorem answered_of_reply {i : Instr} {st : Status} {info : Info} (hf : i.firstFailing = none)
    (hst : st ≠ .invalidArgument) (h : ∀ s, exec i s = .next (afterReply s st info)) : Answered i :=
  ⟨hf, st, fun _ => info, id, hst, h⟩

/-- A request with a payload is rejected or transmits it. -/
theorem rejected_or_transmits {i : Instr} {payload : Bool → List Byte}
    (hp : ∀ dataMode, encode Config.params dataMode i = some (payload dataMode)) : Rejected i ∨ Transmits i := by
  have hfirst : i.firstFailing = firstOutOfU8 (u8Operands i) := firstFailing_of_u8 (ranges_of_encode (hp false))
  cases hf : firstOutOfU8 (u8Operands i) with
  | some k => exact .inl ⟨k, hfirst.trans hf, fun s => by rw [exec_of_encode (hp _), serveCommand_bad _ s hf]⟩
  | none => exact .inr ⟨hfirst.trans hf, payload, fun s => by rw [exec_of_encode (hp _), serveCommand_ok _ s hf]⟩

/-- `DATA_FW_VERSION` transmits a given parameter and is refused without one. -/
theorem dataFwVersion_outcome : Rejected .dataFwVersion ∨ Transmits .dataFwVersion ∨ Answered .dataFwVersion := by
  cases hp : Config.params.dataFwPayload with
  | none => exact .inr (.inr (answered_of_reply (st := .refused) rfl nofun fun s => by
      rw [exec_dataFwVersion, hp, serveParameter_none]))
  | some p => exact or_assoc.1 (.inl (rejected_or_transmits fun _ => hp))

/-- `AUX_TOGGLE` transmits a given parameter with its bool byte and is refused without one. -/
theorem auxToggle_outcome (on : Bool) :
    Rejected (.auxToggle on) ∨ Transmits (.auxToggle on) ∨ Answered (.auxToggle on) := by
  cases hp : Config.params.auxPrefix.map (· ++ [encBool on]) with
  | none => exact .inr (.inr (answered_of_reply (st := .refused) rfl nofun fun s => by
      rw [exec_auxToggle, hp, serveParameter_none]))
  | some p => exact or_assoc.1 (.inl (rejected_or_transmits fun _ => hp))

/-- `SEND_RAW` is rejected over 65535 bytes and transmits up to them. -/
theorem sendRaw_outcome (p : List Byte) : Rejected (.sendRaw p) ∨ Transmits (.sendRaw p) := by
  by_cases h : p.length ≤ 65535
  · exact .inr ⟨firstFailing_passes rfl (decide_eq_true h), fun _ => p, fun s => exec_sendRaw_fits s h⟩
  · exact .inl ⟨0, firstFailing_fails rfl (decide_eq_false h), fun s => exec_sendRaw_tooLong s (by omega)⟩

/-- `CRC_BYTE` is rejected out of range, and otherwise answered. -/
theorem crcByte_outcome (b : Int) : Rejected (.crcByte b) ∨ Answered (.crcByte b) := by
  by_cases h : 0 ≤ b ∧ b ≤ 255
  · exact .inr ⟨firstFailing_passes rfl (decide_eq_true h), .ok, fun _ => .none,
      fun w => crcStep w (BitVec.ofInt 8 b), nofun, fun s => exec_crcByte_inRange s h.1 h.2⟩
  · exact .inl ⟨0, firstFailing_fails rfl (decide_eq_false h), fun s => exec_crcByte_outOfRange s (by omega)⟩

/-- `CRC_VALIDATE` is rejected with its checksum out of range, and otherwise answered. -/
theorem crcValidate_outcome (data : List Byte) (c : Int) :
    Rejected (.crcValidate data c) ∨ Answered (.crcValidate data c) := by
  by_cases h : 0 ≤ c ∧ c ≤ 65535
  · refine .inr (answered_of_reply (firstFailing_passes rfl (decide_eq_true h)) ?_
      fun s => exec_crcValidate_inRange data s h.1 h.2)
    split <;> nofun
  · exact .inl ⟨1, firstFailing_fails rfl (decide_eq_false h), fun s => exec_crcValidate_outOfRange data s (by omega)⟩

/-- Every request but `DIRECT_ENABLE`, `OPEN` and `CLOSE` has one of the three outcomes. -/
theorem outcome_of_unheld {i : Instr} (hDirect : ∀ f1 f2, i ≠ .directEnable f1 f2) (hOpen : i ≠ .openSession)
    (hClose : i ≠ .closeSession) : Rejected i ∨ Transmits i ∨ Answered i := by
  cases i with
  | directEnable f1 f2 => exact absurd rfl (hDirect f1 f2)
  | openSession => exact absurd rfl hOpen
  | closeSession => exact absurd rfl hClose
  | dataFwVersion => exact dataFwVersion_outcome
  | auxToggle on => exact auxToggle_outcome on
  | sendRaw p => exact or_assoc.1 (.inl (sendRaw_outcome p))
  | crcInit => exact .inr (.inr ⟨rfl, .ok, fun _ => .none, fun _ => 0xFFFF#16, nofun, exec_crcInit⟩)
  | crcByte b => exact (crcByte_outcome b).imp_right .inr
  | crcRead => exact .inr (.inr ⟨rfl, .ok, fun w => .crc (w ^^^ 0xFFFF#16), id, nofun, exec_crcRead⟩)
  | crcCompute data => exact .inr (.inr (answered_of_reply (st := .ok) rfl nofun (exec_crcCompute data)))
  | crcValidate data c => exact (crcValidate_outcome data c).imp_right .inr
  | _ => exact or_assoc.1 (.inl (rejected_or_transmits fun _ => rfl))

/-! ## Which operand is reported -/

/-- R181 of one request in one state: the first failing operand is reported, and with none failing no reply the step
adds has the status `INVALID_ARGUMENT`. -/
def ReportsFirstFailing (i : Instr) (s : State) : Prop :=
  (∀ k, i.firstFailing = some k → exec i s = .next (afterReply s .invalidArgument (.operand k))) ∧
  (∀ t, i.firstFailing = none → exec i s = .next t →
    ∀ r ∈ t.replies, r ∈ s.replies ∨ r.status ≠ .invalidArgument)

theorem reports_of_rejected {i : Instr} (h : Rejected i) (s : State) : ReportsFirstFailing i s := by
  obtain ⟨k, hk, he⟩ := h
  refine ⟨fun j hj => ?_, fun t hf => ?_⟩
  · obtain rfl : k = j := Option.some.inj (hk.symm.trans hj)
    exact he s
  · rw [hk] at hf; cases hf

/-- A request with no operand out of range whose step adds replies of other statuses only. -/
theorem reports_of_replies {i : Instr} {s t : State} {rs : List Reply} (hf : i.firstFailing = none)
    (he : exec i s = .next t) (hr : t.replies = s.replies ++ rs) (hrs : ∀ r ∈ rs, r.status ≠ .invalidArgument) :
    ReportsFirstFailing i s := by
  refine ⟨fun k hk => ?_, fun u _ hu r hmem => ?_⟩
  · rw [hf] at hk; cases hk
  · rw [he] at hu; cases hu
    rw [hr, List.mem_append] at hmem
    exact hmem.imp_right (hrs r)

theorem reports_of_transmits {i : Instr} (h : Transmits i) (s : State) : ReportsFirstFailing i s := by
  obtain ⟨hf, payload, he⟩ := h
  rcases transmit_cases (payload s.dataModeActive) s with ⟨_, ht⟩ | ⟨_, ht⟩ <;>
    exact reports_of_replies hf ((he s).trans (congrArg _ ht)) rfl (List.forall_mem_singleton.2 nofun)

theorem reports_of_answered {i : Instr} (h : Answered i) (s : State) : ReportsFirstFailing i s := by
  obtain ⟨hf, _, _, _, hst, he⟩ := h
  exact reports_of_replies hf (he s) rfl (List.forall_mem_singleton.2 hst)

theorem reports_of_outcome {i : Instr} (h : Rejected i ∨ Transmits i ∨ Answered i) (s : State) :
    ReportsFirstFailing i s := by
  rcases h with h | h | h
  · exact reports_of_rejected h s
  · exact reports_of_transmits h s
  · exact reports_of_answered h s

theorem reports_directEnable (f1 f2 : Bool) (s : State) : ReportsFirstFailing (.directEnable f1 f2) s := by
  have he : exec (.directEnable f1 f2) s = .next (directEnable Config.params f1 f2 s) := rfl
  by_cases hq : s.seqStep = .idle
  · cases hl : s.link with
    | true =>
      rw [directEnable_up _ f1 f2 hq hl] at he
      exact reports_of_replies rfl he (List.append_nil _).symm (List.forall_mem_nil _)
    | false =>
      rw [directEnable_down _ f1 f2 hq hl] at he
      exact reports_of_replies rfl he rfl (List.forall_mem_singleton.2 nofun)
  · rw [directEnable_held _ f1 f2 hq] at he
    exact reports_of_replies rfl he (List.append_nil _).symm (List.forall_mem_nil _)

/-- The replies of the accepting step of `OPEN` and `CLOSE`: at most the one of the sequence it ends. -/
theorem reports_acceptJoin {i : Instr} {kind : JoinKind} {s : State} (hf : i.firstFailing = none)
    (he : exec i s = .next (acceptJoin kind s)) : ReportsFirstFailing i s := by
  rcases acceptJoin_cases kind s with ⟨_, h⟩ | ⟨_, _, h⟩ | ⟨_, _, h⟩ <;> rw [h] at he
  · exact reports_of_replies hf he (List.append_nil _).symm (List.forall_mem_nil _)
  · exact reports_of_replies hf he (List.append_nil _).symm (List.forall_mem_nil _)
  · exact reports_of_replies hf he rfl (List.forall_mem_map.2 fun _ _ => nofun)

/-- Settles O22: the three held requests check no operand, and every other one has one of the three outcomes. -/
theorem firstFailingOperandIsReported : Obligations.FirstFailingOperandIsReported := by
  intro i s
  have hreports : ReportsFirstFailing i s := by
    cases i with
    | directEnable f1 f2 => exact reports_directEnable f1 f2 s
    | openSession => exact reports_acceptJoin rfl rfl
    | closeSession => exact reports_acceptJoin rfl rfl
    | _ => refine reports_of_outcome (outcome_of_unheld ?_ ?_ ?_) s <;> nofun
  obtain ⟨hfailing, hpassing⟩ := hreports
  exact ⟨hfailing, hpassing, fun _ => rfl⟩

/-! ## Requests while a sequence runs -/

/-- `Transmit` neither reads nor writes `SEQ_STEP`. -/
theorem transmit_seqStep_update (p : List Byte) (k : SeqStep) (s : State) :
    transmit p { s with seqStep := k } = { transmit p s with seqStep := k } := by
  rcases transmit_cases p s with ⟨hl, h⟩ | ⟨hl, h⟩ <;> rw [h]
  · exact transmit_up p hl
  · exact transmit_down p hl

/-- A request answered in its accepting step has the same outcome in every state of the sequencer. -/
theorem exec_seqStep_update {i : Instr} (h : Rejected i ∨ Transmits i ∨ Answered i) (k : SeqStep) {s t : State}
    (he : exec i s = .next t) : exec i { s with seqStep := k } = .next { t with seqStep := k } := by
  rcases h with ⟨_, _, hx⟩ | ⟨_, payload, hx⟩ | ⟨_, _, _, _, _, hx⟩ <;> rw [hx] at he ⊢ <;> cases he
  · rfl
  · rw [transmit_seqStep_update]
  · rfl

/-- Settles O47: a `DIRECT_ENABLE` is held, and the outcome of every other request does not depend on `SEQ_STEP`. -/
theorem directEnableIsHeldWhileASequenceRuns : Obligations.DirectEnableIsHeldWhileASequenceRuns := fun _ =>
  ⟨fun f1 f2 hq => congrArg _ (directEnable_held _ f1 f2 hq),
    fun _ k _ hDirect hOpen hClose he => exec_seqStep_update (outcome_of_unheld hDirect hOpen hClose) k he⟩

end Sys2Proof.Proofs
end

section
/-! The sessions (70_reset_and_hazards.md R273, R274): the accepting step that `OPEN` and `CLOSE` share, and the completion
step of each. -/

namespace Sys2Proof.Proofs

open Sys2Proof.Machine

theorem exec_openSession (s : State) : exec .openSession s = .next (acceptJoin .opening s) := rfl

theorem exec_closeSession (s : State) : exec .closeSession s = .next (acceptJoin .closing s) := rfl

/-! ## The accepting step -/

/-- With no sequence running `CANCEL` is set and the request is held. -/
theorem acceptJoin_idle (kind : JoinKind) {s : State} (hj : s.join = none) (hq : s.seqStep = .idle) :
    acceptJoin kind s = { accept s with cancel := true, join := some ⟨s.serving, kind⟩ } := by
  rcases acceptJoin_cases kind s with ⟨hheld, _⟩ | ⟨_, _, h⟩ | ⟨_, hrunning, _⟩
  · exact absurd hj hheld
  · exact h
  · exact absurd hq hrunning

/-- A running sequence is ended as well, and its pending request gets `CANCELLED`. -/
theorem acceptJoin_running (kind : JoinKind) {s : State} {r : Nat} (hj : s.join = none) (hq : s.seqStep ≠ .idle)
    (hr : s.seqReq = some r) :
    acceptJoin kind s = { accept s with
      cancel := true, join := some ⟨s.serving, kind⟩, seqStep := .idle, seqReq := none
      replies := s.replies ++ [⟨r, .cancelled, .none⟩] } := by
  rcases acceptJoin_cases kind s with ⟨hheld, _⟩ | ⟨_, hidle, _⟩ | ⟨_, _, h⟩
  · exact absurd hj hheld
  · exact absurd hidle hq
  · rw [h, hr]; rfl

/-! ## The completion step -/

/-- Until the deframer is STOPPED the completion step is not enabled, whichever request is held: this is the join. -/
theorem completeJoin_waits {s : State} (hm : s.rxMode ≠ .stopped) : completeJoin s = s := by
  rcases completeJoin_cases s with ⟨_, _, hstopped, _⟩ | ⟨_, _, hstopped, _⟩ | ⟨_, h⟩
  · exact absurd hstopped hm
  · exact absurd hstopped hm
  · exact h

theorem completeJoin_opening {s : State} {r : Nat} (hj : s.join = some ⟨r, .opening⟩) (hm : s.rxMode = .stopped) :
    completeJoin s = completeOpen r s := by
  rw [completeJoin, hj, hm]

theorem completeJoin_closing {s : State} {r : Nat} (hj : s.join = some ⟨r, .closing⟩) (hm : s.rxMode = .stopped) :
    completeJoin s = completeClose r s := by
  rw [completeJoin, hj, hm]

/-! ## The rules -/

/-- Settles O50: the accepting step is split at the sequencer, the completion step at the deframer. -/
theorem closeFollowsItsRule : Obligations.CloseFollowsItsRule := by
  intro s
  refine ⟨fun hj hq => ?idle, fun r hj hq hr => ?running, fun r hj => ⟨fun hm => ?stopped, completeJoin_waits⟩⟩
  case idle => rw [exec_closeSession, acceptJoin_idle _ hj hq]; rfl
  case running => rw [exec_closeSession, acceptJoin_running _ hj hq hr]; rfl
  case stopped => rw [completeJoin_closing hj hm]; rfl

/-- Settles O51: as O50, with the completion step that starts the deframer on an empty stream. -/
theorem openFollowsItsRule : Obligations.OpenFollowsItsRule := by
  intro s
  refine ⟨fun hj hq => ?idle, fun r hj hq hr => ?running, fun r hj => ⟨fun hm => ?stopped, completeJoin_waits⟩⟩
  case idle => rw [exec_openSession, acceptJoin_idle _ hj hq]; rfl
  case running => rw [exec_openSession, acceptJoin_running _ hj hq hr]; rfl
  case stopped => rw [completeJoin_opening hj hm]; rfl

end Sys2Proof.Proofs
end

section
/-! What one turn leaves (60_exceptions.md R258, R259): the frame of each operation and the fields it writes, said once
over `AfterTurn`. The laws of every step are read off these lemmas. -/

namespace Sys2Proof.Proofs

open Sys2Proof.Machine Sys2Proof.Safety Sys2Proof.Config

/-! ## The outcomes of an accepting step -/

/-- The cases of `AfterExec` by name, with `OPEN` and `CLOSE` as one. -/
inductive ExecOutcome (i : Instr) (s : State) : State → Prop where
  /-- a `DIRECT_ENABLE` stays at the port while a sequence runs (R221) -/
  | held : ExecOutcome i s s
  /-- one reply and nothing else -/
  | answered (st : Status) (info : Info) (hst : raisedByBlock st = true) : ExecOutcome i s (afterReply s st info)
  /-- one frame and its reply -/
  | sent (hl : s.link = true) (p : List Byte) (hp : p.length ≤ 65535) : ExecOutcome i s (afterSent s p)
  /-- `CRC_INIT` or `CRC_BYTE` -/
  | accumulated (w : Word16) (hi : i = .crcInit ∨ ∃ b, i = .crcByte b) :
      ExecOutcome i s { afterReply s .ok .none with crcAcc := w }
  /-- a `DIRECT_ENABLE` starts the sequence (R220) -/
  | started (hq : s.seqStep = .idle) (hl : s.link = true) (f1 f2 : Bool) :
      ExecOutcome i s { accept s with
        txq := s.txq ++ wireFrame (directPayload1 Config.params)
        evq := s.evq ++ [.cmdSent (directPayload1 Config.params)]
        seqF1 := f1, seqF2 := f2, seqStep := .wait1, seqReq := some s.serving }
  /-- `OPEN` or `CLOSE` (R273, R274) -/
  | joined (kind : JoinKind) (hi : i = .openSession ∨ i = .closeSession) : ExecOutcome i s (acceptJoin kind s)

theorem execOutcome_of_afterExec {i : Instr} {s t : State} (h : AfterExec i s t) : ExecOutcome i s t := by
  rcases h with ⟨rfl, _⟩ | ⟨st, info, hst, rfl⟩ | ⟨hl, p, hp, rfl⟩ | ⟨w, rfl, hi⟩ | ⟨hq, hl, f1, f2, _, rfl⟩ |
    ⟨hi, rfl⟩ | ⟨hi, rfl⟩
  · exact .held
  · exact .answered st info hst
  · exact .sent hl p hp
  · exact .accumulated w hi
  · exact .started hq hl f1 f2
  · exact .joined .opening (.inl hi)
  · exact .joined .closing (.inr hi)

/-! ## Frames -/

/-- `t` with the fields that this turn may write put back to what they are in `s` (R259). -/
def putBack (turn : Turn) (s t : State) : State :=
  match turn with
  | .present _ _ => { t with reqPort := s.reqPort }
  | .serve _ =>
    { t with
      cancel := s.cancel, crcAcc := s.crcAcc, seqStep := s.seqStep, seqF1 := s.seqF1, seqF2 := s.seqF2
      txq := s.txq, evq := s.evq, reqPort := s.reqPort, join := s.join, seqReq := s.seqReq
      replies := s.replies, serving := s.serving }
  | .complete =>
    { t with
      rxMode := s.rxMode, hdrBuf := s.hdrBuf, bodyBuf := s.bodyBuf, cancel := s.cancel, rxq := s.rxq
      join := s.join, replies := s.replies }
  | .deframer | .rxTimeout =>
    { t with
      rxMode := s.rxMode, hdrBuf := s.hdrBuf, frLen := s.frLen, frCode := s.frCode, bodyBuf := s.bodyBuf
      rxq := s.rxq, evq := s.evq }
  | .delayDone =>
    { t with seqStep := s.seqStep, seqReq := s.seqReq, txq := s.txq, evq := s.evq, replies := s.replies }
  | .rxByte _ => { t with rxq := s.rxq }
  | .setLink _ => { t with link := s.link }
  | .setDataMode _ => { t with dataModeActive := s.dataModeActive }
  | .takeTx => { t with txq := s.txq }
  | .takeEv => { t with evq := s.evq }

theorem putBack_acceptJoin (r : Nat) (kind : JoinKind) (s : State) : putBack (.serve r) s (acceptJoin kind s) = s := by
  rcases acceptJoin_cases kind s with ⟨_, h⟩ | ⟨_, _, h⟩ | ⟨_, _, h⟩ <;> rw [h] <;> rfl

/-- What serving a request leaves alone. -/
theorem putBack_of_afterExec (r : Nat) {i : Instr} {s t : State} (h : AfterExec i s t) :
    putBack (.serve r) s t = s := by
  cases execOutcome_of_afterExec h with
  | held | answered | sent | accumulated | started => rfl
  | joined kind => exact putBack_acceptJoin r _ s

/-- Every turn leaves the fields it may not write. -/
theorem afterTurn_frame {turn : Turn} {s t : State} (h : AfterTurn turn s t) : putBack turn s t = s := by
  cases turn with
  | present r i =>
    cases h
    rcases presentRequest_cases r i s with h | ⟨_, h⟩ <;> rw [h] <;> rfl
  | serve r =>
    rcases h with ⟨_, rfl⟩ | ⟨_, _, hx⟩
    · rfl
    · exact congrArg (fun u : State => { u with serving := s.serving }) (putBack_of_afterExec r hx)
  | complete =>
    cases h
    rcases completeJoin_cases s with ⟨_, _, _, h⟩ | ⟨_, _, _, h⟩ | ⟨_, h⟩ <;> rw [h] <;> rfl
  | deframer => cases h; exact (deframerStep_frame Config.params s).1
  | rxTimeout => cases h; exact (rxTimeout_frame Config.params s).1
  | delayDone =>
    cases h
    rcases delayDone_cases Config.params s with h | ⟨_, _, _, _, _, h, _⟩ | ⟨_, _, _, _, h⟩ <;> rw [h] <;> rfl
  | rxByte _ | setLink _ | setDataMode _ | takeTx | takeEv => cases h; rfl

/-- No turn writes the agenda. -/
theorem afterTurn_agenda {turn : Turn} {s t : State} (h : AfterTurn turn s t) : t.agenda = s.agenda := by
  have hf := congrArg State.agenda (afterTurn_frame h)
  cases turn <;> exact hf

/-- All a step can do: nothing with no turn left, else the turn it takes off the agenda. -/
theorem step_turn {s t : State} (h : step s = .next t) :
    t = s ∨ ∃ turn, s.agenda = turn :: t.agenda ∧ AfterTurn turn { s with agenda := t.agenda } t := by
  rcases step_cases h with ⟨_, ht⟩ | ⟨turn, rest, ha, hturn⟩
  · exact .inl ht
  · obtain rfl : t.agenda = rest := afterTurn_agenda hturn
    exact .inr ⟨turn, ha, hturn⟩

/-- A step whose turn is known. -/
theorem afterTurn_of_step {s t : State} {turn : Turn} {rest : List Turn} (ha : s.agenda = turn :: rest)
    (h : step s = .next t) : AfterTurn turn { s with agenda := rest } t := by
  simp only [step, stepAgenda, ha] at h
  exact runTurn_cases turn _ t h

/-! ## Who writes the shared registers -/

theorem acceptJoin_cancel (kind : JoinKind) (s : State) :
    ((acceptJoin kind s).cancel = s.cancel ∧ (acceptJoin kind s).join = s.join) ∨
    (s.join = none ∧ (acceptJoin kind s).cancel = true) := by
  rcases acceptJoin_cases kind s with ⟨_, h⟩ | ⟨hj, _, h⟩ | ⟨hj, _, h⟩ <;> rw [h]
  · exact .inl ⟨rfl, rfl⟩
  · exact .inr ⟨hj, rfl⟩
  · exact .inr ⟨hj, rfl⟩

/-- `CANCEL` and the held request change together, and only when `OPEN` or `CLOSE` is accepted. -/
theorem afterExec_cancel {i : Instr} {s t : State} (h : AfterExec i s t) :
    (t.cancel = s.cancel ∧ t.join = s.join) ∨
    (s.join = none ∧ t.cancel = true ∧ (i = .openSession ∨ i = .closeSession)) := by
  cases execOutcome_of_afterExec h with
  | held | answered | sent | accumulated | started => exact .inl ⟨rfl, rfl⟩
  | joined kind hi => exact (acceptJoin_cancel kind s).imp_right fun ⟨hj, hc⟩ => ⟨hj, hc, hi⟩

/-- Over every turn: `CANCEL` and the held request stay, or `OPEN` or `CLOSE` is accepted, or the held one completes. -/
theorem afterTurn_cancel {turn : Turn} {s t : State} (h : AfterTurn turn s t) :
    (t.cancel = s.cancel ∧ t.join = s.join) ∨
    (s.join = none ∧ t.cancel = true ∧ ∃ r q, turn = .serve r ∧ presented r s = some q ∧
      (q.op = .openSession ∨ q.op = .closeSession)) ∨
    (turn = .complete ∧ s.rxMode = .stopped ∧ t.join = none ∧
      (t.cancel = s.cancel ∨ ∃ r, s.join = some ⟨r, .opening⟩ ∧ t.cancel = false)) := by
  have hf := congrArg State.cancel (afterTurn_frame h)
  have hj := congrArg State.join (afterTurn_frame h)
  cases turn with
  | serve r =>
    rcases h with ⟨_, rfl⟩ | ⟨q, hp, hx⟩
    · exact .inl ⟨rfl, rfl⟩
    · exact (afterExec_cancel hx).imp_right fun ⟨hj, hc, hi⟩ => .inl ⟨hj, hc, r, q, rfl, hp, hi⟩
  | complete =>
    cases h
    rcases completeJoin_cases s with ⟨r, hj, hm, h⟩ | ⟨_, _, hm, h⟩ | ⟨_, h⟩ <;> rw [h]
    · exact .inr (.inr ⟨rfl, hm, rfl, .inr ⟨r, hj, rfl⟩⟩)
    · exact .inr (.inr ⟨rfl, hm, rfl, .inl rfl⟩)
    · exact .inl ⟨rfl, rfl⟩
  | _ => exact .inl ⟨hf, hj⟩

/-- Only the environment writes `LINK`. -/
theorem afterTurn_link {turn : Turn} {s t : State} (h : AfterTurn turn s t) :
    t.link = s.link ∨ turn = .setLink t.link := by
  have hf := congrArg State.link (afterTurn_frame h)
  cases turn with
  | setLink _ => cases h; exact .inr rfl
  | _ => exact .inl hf

/-- Only the surrounding session state writes `DATA_MODE_ACTIVE`. -/
theorem afterTurn_dataMode {turn : Turn} {s t : State} (h : AfterTurn turn s t) :
    t.dataModeActive = s.dataModeActive ∨ turn = .setDataMode t.dataModeActive := by
  have hf := congrArg State.dataModeActive (afterTurn_frame h)
  cases turn with
  | setDataMode _ => cases h; exact .inr rfl
  | _ => exact .inl hf

theorem acceptJoin_crcAcc (kind : JoinKind) (s : State) : (acceptJoin kind s).crcAcc = s.crcAcc := by
  rcases acceptJoin_cases kind s with ⟨_, h⟩ | ⟨_, _, h⟩ | ⟨_, _, h⟩ <;> rw [h] <;> rfl

/-- Of the requests only `CRC_INIT` and `CRC_BYTE` write `CRC_ACC`. -/
theorem afterExec_crcAcc {i : Instr} {s t : State} (h : AfterExec i s t) :
    t.crcAcc = s.crcAcc ∨ i = .crcInit ∨ ∃ b, i = .crcByte b := by
  cases execOutcome_of_afterExec h with
  | held | answered | sent | started => exact .inl rfl
  | accumulated w hi => exact .inr hi
  | joined kind => exact .inl (acceptJoin_crcAcc _ s)

/-- No other turn writes `CRC_ACC`. -/
theorem afterTurn_crcAcc {turn : Turn} {s t : State} (h : AfterTurn turn s t) :
    t.crcAcc = s.crcAcc ∨ ∃ r q, turn = .serve r ∧ presented r s = some q ∧
      (q.op = .crcInit ∨ ∃ b, q.op = .crcByte b) := by
  have hf := congrArg State.crcAcc (afterTurn_frame h)
  cases turn with
  | serve r =>
    rcases h with ⟨_, rfl⟩ | ⟨q, hp, hx⟩
    · exact .inl rfl
    · exact (afterExec_crcAcc hx).imp_right fun hi => ⟨r, q, rfl, hp, hi⟩
  | _ => exact .inl hf

/-! ## The queues -/

/-- One whole frame is appended to `TXQ`, with its event, while the link is up. -/
def SendsFrame (s t : State) : Prop :=
  ∃ p : List Byte, p.length ≤ 65535 ∧ s.link = true ∧ t.txq = s.txq ++ wireFrame p ∧ t.evq = s.evq ++ [.cmdSent p]

theorem acceptJoin_queues (kind : JoinKind) (s : State) :
    (acceptJoin kind s).txq = s.txq ∧ (acceptJoin kind s).evq = s.evq := by
  rcases acceptJoin_cases kind s with ⟨_, h⟩ | ⟨_, _, h⟩ | ⟨_, _, h⟩ <;> rw [h] <;> exact ⟨rfl, rfl⟩

/-- An accepting step leaves both outgoing queues or sends one frame. -/
theorem afterExec_queues {i : Instr} {s t : State} (h : AfterExec i s t) :
    (t.txq = s.txq ∧ t.evq = s.evq) ∨ SendsFrame s t := by
  cases execOutcome_of_afterExec h with
  | held | answered | accumulated => exact .inl ⟨rfl, rfl⟩
  | sent hl p hp => exact .inr ⟨p, hp, hl, rfl, rfl⟩
  | started hq hl => exact .inr ⟨_, directPayload1_length _, hl, rfl, rfl⟩
  | joined kind => exact .inl (acceptJoin_queues _ s)

/-- `DELAY_DONE` leaves both outgoing queues or sends one frame of the running sequence. -/
theorem delayDone_queues (P : Params) (s : State) :
    ((delayDone P s).txq = s.txq ∧ (delayDone P s).evq = s.evq) ∨
    (s.seqStep ≠ .idle ∧ SendsFrame s (delayDone P s)) := by
  rcases delayDone_cases P s with h | ⟨hq, hl, p, _, _, h, hp⟩ | ⟨_, _, _, _, h⟩ <;> rw [h]
  · exact .inl ⟨rfl, rfl⟩
  · have hlen : p.length ≤ 65535 := by
      rcases hp with rfl | rfl
      · simp [directPayload2]
      · exact directPayload3_length P
    exact .inr ⟨hq, p, hlen, hl, rfl, rfl⟩
  · exact .inl ⟨rfl, rfl⟩

/-- Who may append a frame, and who takes a byte. -/
theorem afterTurn_txq {turn : Turn} {s t : State} (h : AfterTurn turn s t) :
    t.txq = s.txq ∨ (t.txq = s.txq.tail ∧ turn = .takeTx) ∨
    (SendsFrame s t ∧ ((∃ r q, turn = .serve r ∧ presented r s = some q) ∨
      (turn = .delayDone ∧ s.seqStep ≠ .idle))) := by
  have hf := congrArg State.txq (afterTurn_frame h)
  cases turn with
  | serve r =>
    rcases h with ⟨_, rfl⟩ | ⟨q, hp, hx⟩
    · exact .inl rfl
    · rcases afterExec_queues hx with ⟨htx, _⟩ | hsend
      · exact .inl htx
      · exact .inr (.inr ⟨hsend, .inl ⟨r, q, rfl, hp⟩⟩)
  | delayDone =>
    cases h
    rcases delayDone_queues Config.params s with ⟨htx, _⟩ | ⟨hq, hsend⟩
    · exact .inl htx
    · exact .inr (.inr ⟨hsend, .inr ⟨rfl, hq⟩⟩)
  | takeTx => cases h; exact .inr (.inl ⟨rfl, rfl⟩)
  | _ => exact .inl hf

theorem evqGrows_of_sendsFrame {s t : State} (h : SendsFrame s t) : EvqGrows s t := by
  obtain ⟨p, _, _, _, he⟩ := h
  exact .inr ⟨.cmdSent p, rfl, he⟩

/-- Only the host takes an event; every other turn appends at most one, with a status of the block. -/
theorem afterTurn_evq {turn : Turn} {s t : State} (h : AfterTurn turn s t) :
    EvqGrows s t ∨ (t.evq = s.evq.tail ∧ turn = .takeEv) := by
  have hf := congrArg State.evq (afterTurn_frame h)
  cases turn with
  | serve r =>
    rcases h with ⟨_, rfl⟩ | ⟨q, hp, hx⟩
    · exact .inl (.inl rfl)
    · rcases afterExec_queues hx with ⟨_, hev⟩ | hsend
      · exact .inl (.inl hev)
      · exact .inl (evqGrows_of_sendsFrame hsend)
  | deframer => cases h; exact .inl (deframerStep_frame Config.params s).2.2
  | rxTimeout => cases h; exact .inl (rxTimeout_frame Config.params s).2.2
  | delayDone =>
    cases h
    rcases delayDone_queues Config.params s with ⟨_, hev⟩ | ⟨_, hsend⟩
    · exact .inl (.inl hev)
    · exact .inl (evqGrows_of_sendsFrame hsend)
  | takeEv => cases h; exact .inr ⟨rfl, rfl⟩
  | _ => exact .inl (.inl hf)

/-- Who takes bytes of `RXQ`, who appends one, and what empties it. -/
theorem afterTurn_rxq {turn : Turn} {s t : State} (h : AfterTurn turn s t) :
    t.rxq = s.rxq ∨ (t.rxq = s.rxq.tail ∧ turn = .deframer) ∨ (∃ b, t.rxq = s.rxq ++ [b] ∧ turn = .rxByte b) ∨
    (∃ r, t.rxq = [] ∧ turn = .complete ∧ s.join = some ⟨r, .opening⟩) := by
  have hf := congrArg State.rxq (afterTurn_frame h)
  cases turn with
  | complete =>
    cases h
    rcases completeJoin_cases s with ⟨r, hj, _, h⟩ | ⟨_, _, _, h⟩ | ⟨_, h⟩ <;> rw [h]
    · exact .inr (.inr (.inr ⟨r, rfl, rfl, hj⟩))
    · exact .inl rfl
    · exact .inl rfl
  | deframer =>
    cases h
    exact (deframerStep_frame Config.params s).2.1.imp_right fun hq => .inl ⟨hq, rfl⟩
  | rxTimeout => cases h; exact .inl (rxTimeout_frame Config.params s).2.1
  | rxByte b => cases h; exact .inr (.inr (.inl ⟨b, rfl, rfl⟩))
  | _ => exact .inl hf

/-! ## Replies -/

/-- Replies are added, each with a status of the block, and (where no request is pending while the sequencer is IDLE)
the requesters outstanding before are those of the added replies and those outstanding after. -/
def Answers (s t : State) : Prop :=
  ∃ rs : List Reply, t.replies = s.replies ++ rs ∧ (∀ r ∈ rs, raisedByBlock r.status = true) ∧
    ((s.seqStep = .idle → s.seqReq = none) → (outstanding s).Perm (rs.map (·.requester) ++ outstanding t))

/-- A turn that adds no reply and leaves the requesters outstanding, up to their order. -/
theorem answers_none {s t : State} (hr : t.replies = s.replies)
    (ho : (s.seqStep = .idle → s.seqReq = none) → (outstanding s).Perm (outstanding t)) : Answers s t :=
  ⟨[], by rw [hr, List.append_nil], List.forall_mem_nil _, ho⟩

theorem answers_afterReply {s : State} {q : Request} (hp : presented s.serving s = some q) (st : Status) (info : Info)
    (hst : raisedByBlock st = true) : Answers s (afterReply s st info) :=
  ⟨[⟨s.serving, st, info⟩], rfl, List.forall_mem_singleton.2 hst, fun _ =>
    ((presented_perm hp).append_right _).append_right _⟩

/-- The pending request of a sequence that ends is the one that is answered. -/
theorem answers_endSequence (s : State) (st : Status) (info : Info) (hst : raisedByBlock st = true) :
    Answers s (endSequence st info s) := by
  refine ⟨s.seqReq.toList.map fun r => ⟨r, st, info⟩, rfl, List.forall_mem_map.2 fun _ _ => hst, fun _ => ?_⟩
  simp only [outstanding, List.map_map, Function.comp_def, List.map_id', endSequence_reqPort, endSequence_join,
    endSequence_seqReq, Option.toList_none, List.append_nil]
  exact List.perm_append_comm

/-- A request moved from the port to the hold stays outstanding; a sequence that is ended answers its own. -/
theorem answers_acceptJoin {s : State} {q : Request} (hp : presented s.serving s = some q) (kind : JoinKind) :
    Answers s (acceptJoin kind s) := by
  have hport := presented_perm hp
  rcases acceptJoin_cases kind s with ⟨_, h⟩ | ⟨hj, _, h⟩ | ⟨hj, _, h⟩ <;> rw [h]
  · exact answers_none rfl fun _ => .refl _
  · refine answers_none rfl fun _ => List.perm_iff_count.2 fun a => ?_
    have := hport.count_eq a
    simp only [outstanding, accept, hj, List.count_append, List.count_cons, Option.toList_none, Option.toList_some,
      List.map_cons, List.map_nil, List.count_nil] at this ⊢
    omega
  · refine ⟨_, rfl, List.forall_mem_map.2 fun _ _ => rfl, fun _ => List.perm_iff_count.2 fun a => ?_⟩
    have := hport.count_eq a
    simp only [outstanding, accept, hj, List.count_append, List.count_cons, Option.toList_none, Option.toList_some,
      List.map_cons, List.map_nil, List.count_nil, List.map_map, Function.comp_def, List.map_id'] at this ⊢
    omega

theorem answers_of_afterExec {i : Instr} {s t : State} {q : Request} (hp : presented s.serving s = some q)
    (h : AfterExec i s t) : Answers s t := by
  cases execOutcome_of_afterExec h with
  | held => exact answers_none rfl fun _ => .refl _
  | answered st info hst => exact answers_afterReply hp st info hst
  | sent hl p => exact answers_afterReply hp .ok (.payload p) rfl
  | accumulated => exact answers_afterReply hp .ok .none rfl
  | started hq =>
    refine answers_none rfl fun hseq => List.perm_iff_count.2 fun a => ?_
    have := (presented_perm hp).count_eq a
    simp only [outstanding, accept, hseq hq, List.count_append, List.count_cons, Option.toList_none,
      Option.toList_some, List.count_nil] at this ⊢
    omega
  | joined kind => exact answers_acceptJoin hp _

theorem answers_delayDone (P : Params) (s : State) : Answers s (delayDone P s) := by
  rcases delayDone_cases P s with h | ⟨_, _, _, _, _, h, _⟩ | ⟨_, st, info, hst, h⟩ <;> rw [h]
  · exact answers_none rfl fun _ => .refl _
  · exact answers_none rfl fun _ => .refl _
  · exact answers_endSequence s st info hst

theorem answers_releaseJoin {s : State} {r : Nat} {kind : JoinKind} (hj : s.join = some ⟨r, kind⟩) :
    Answers s (releaseJoin r s) := by
  refine ⟨[⟨r, .ok, .none⟩], rfl, List.forall_mem_singleton.2 rfl, fun _ => List.perm_iff_count.2 fun a => ?_⟩
  simp only [outstanding, hj, releaseJoin_reqPort, releaseJoin_join, releaseJoin_seqReq, List.count_append,
    List.count_cons, Option.toList_none, Option.toList_some, List.map_cons, List.map_nil, List.count_nil]
  omega

theorem answers_completeJoin (s : State) : Answers s (completeJoin s) := by
  rcases completeJoin_cases s with ⟨r, hj, _, h⟩ | ⟨r, hj, _, h⟩ | ⟨_, h⟩ <;> rw [h]
  · exact answers_releaseJoin hj
  · exact answers_releaseJoin hj
  · exact answers_none rfl fun _ => .refl _

/-- Every turn that presents no request answers some of the outstanding ones. -/
theorem answers_of_afterTurn {turn : Turn} {s t : State} (h : AfterTurn turn s t)
    (hn : ∀ r i, turn ≠ .present r i) : Answers s t := by
  have hf := congrArg State.replies (afterTurn_frame h)
  have ho := congrArg outstanding (afterTurn_frame h)
  cases turn with
  | present r i => exact absurd rfl (hn r i)
  | serve r =>
    rcases h with ⟨_, rfl⟩ | ⟨q, hp, hx⟩
    · exact answers_none rfl fun _ => .refl _
    · exact answers_of_afterExec (s := { s with serving := r }) hp hx
  | complete => cases h; exact answers_completeJoin s
  | delayDone => cases h; exact answers_delayDone Config.params s
  | _ => exact answers_none hf fun _ => .of_eq ho.symm

/-- Presenting a request gives no reply and adds at most its requester. -/
theorem presentRequest_outstanding (r : Nat) (i : Instr) (s : State) :
    outstanding (presentRequest r i s) = outstanding s ∨
    (r ∉ outstanding s ∧ (outstanding (presentRequest r i s)).Perm (r :: outstanding s)) := by
  rcases presentRequest_cases r i s with h | ⟨hr, h⟩ <;> rw [h]
  · exact .inl rfl
  · refine .inr ⟨hr, List.perm_iff_count.2 fun a => ?_⟩
    simp only [outstanding, List.map_append, List.map_cons, List.map_nil, List.count_append, List.count_cons,
      List.count_nil]
    omega

/-! ## The sequencer and its pending request -/

/-- A `DIRECT_ENABLE` is pending exactly while the sequence runs. -/
def SeqPending (s : State) : Prop := s.seqStep = .idle ↔ s.seqReq = none

theorem seqPending_of_eq {s t : State} (hs : SeqPending s) (hq : t.seqStep = s.seqStep) (hr : t.seqReq = s.seqReq) :
    SeqPending t := by
  rw [SeqPending, hq, hr]; exact hs

theorem seqPending_acceptJoin {s : State} (hs : SeqPending s) (kind : JoinKind) : SeqPending (acceptJoin kind s) := by
  rcases acceptJoin_cases kind s with ⟨_, h⟩ | ⟨_, _, h⟩ | ⟨_, _, h⟩ <;> rw [h]
  · exact hs
  · exact hs
  · exact ⟨fun _ => rfl, fun _ => rfl⟩

theorem seqPending_of_afterExec {i : Instr} {s t : State} (hs : SeqPending s) (h : AfterExec i s t) :
    SeqPending t := by
  cases execOutcome_of_afterExec h with
  | held | answered | sent | accumulated => exact hs
  | started => exact ⟨nofun, nofun⟩
  | joined kind => exact seqPending_acceptJoin hs _

theorem seqPending_delayDone {s : State} (hs : SeqPending s) (P : Params) : SeqPending (delayDone P s) := by
  rcases delayDone_cases P s with h | ⟨hq, _, _, w, hw, h, _⟩ | ⟨_, _, _, _, h⟩ <;> rw [h]
  · exact hs
  · exact ⟨fun hidle => absurd hidle hw, fun hnone => absurd (hs.2 hnone) hq⟩
  · exact ⟨fun _ => rfl, fun _ => rfl⟩

theorem seqPending_of_afterTurn {turn : Turn} {s t : State} (hs : SeqPending s) (h : AfterTurn turn s t) :
    SeqPending t := by
  have hf := congrArg State.seqStep (afterTurn_frame h)
  have hr := congrArg State.seqReq (afterTurn_frame h)
  cases turn with
  | serve r =>
    rcases h with ⟨_, rfl⟩ | ⟨_, _, hx⟩
    · exact hs
    · exact seqPending_of_afterExec (s := { s with serving := r }) hs hx
  | delayDone => cases h; exact seqPending_delayDone hs Config.params
  | _ => exact seqPending_of_eq hs hf hr

end Sys2Proof.Proofs
end

section
/-! The deframer's registers over one turn (40_framer.md R114 to R125): what a deframer turn or a read timeout can make
of them, said once as `RxMove`; that the buffers stay within their bounds and that a cancelled attempt runs out follow. -/

namespace Sys2Proof.Proofs

open Sys2Proof.Machine Sys2Proof.Safety Sys2Proof.Config

theorem takeHdrEnabled_iff (s : State) :
    takeHdrEnabled s = true ↔
      s.rxMode = .hdr ∧ rxAvail s = true ∧ s.hdrBuf.length < 5 ∧ (s.hdrBuf ≠ [] ∨ s.cancel = false) := by
  simp only [takeHdrEnabled, Bool.and_eq_true, Bool.not_eq_true', Bool.and_eq_false_iff, beq_iff_eq, decide_eq_true_eq,
    List.isEmpty_eq_false_iff, and_assoc]

theorem takeBodyEnabled_iff (s : State) :
    takeBodyEnabled s = true ↔
      s.rxMode = .body ∧ rxAvail s = true ∧ s.bodyBuf.length < s.frLen.toNat + 1 := by
  simp only [takeBodyEnabled, Bool.and_eq_true, beq_iff_eq, decide_eq_true_eq, and_assoc]

/-! ## The moves -/

/-- The deframer's mode and buffers, and the length it reads them by, are the same. -/
def RxSame (s t : State) : Prop :=
  t.rxMode = s.rxMode ∧ t.hdrBuf = s.hdrBuf ∧ t.frLen = s.frLen ∧ t.bodyBuf = s.bodyBuf

/-- What a step of the deframer or a read timeout makes of the deframer's registers, where it writes one. -/
inductive RxMove (s t : State) : Prop where
  /-- one of the first four header bytes is taken -/
  | headerByte (hm : s.rxMode = .hdr) (hstart : s.hdrBuf ≠ [] ∨ s.cancel = false) (ht : t.rxMode = .hdr)
      (hlen : t.hdrBuf.length = s.hdrBuf.length + 1) (hmax : t.hdrBuf.length ≤ 4) (hb : t.bodyBuf = s.bodyBuf)
  /-- the fifth header byte is taken and the header is accepted -/
  | headerDone (hm : s.rxMode = .hdr) (hne : s.hdrBuf ≠ []) (ht : t.rxMode = .body) (hh : t.hdrBuf = [])
      (hb : t.bodyBuf = [])
  /-- a header is discarded -/
  | headerDropped (hm : s.rxMode = .hdr) (hne : s.hdrBuf ≠ []) (ht : t.rxMode = .hdr) (hh : t.hdrBuf = [])
      (hb : t.bodyBuf = s.bodyBuf)
  /-- a body byte is taken, not the last -/
  | bodyByte (hm : s.rxMode = .body) (ht : t.rxMode = .body) (hh : t.hdrBuf = s.hdrBuf) (hl : t.frLen = s.frLen)
      (hlen : t.bodyBuf.length = s.bodyBuf.length + 1) (hmax : t.bodyBuf.length ≤ t.frLen.toNat)
  /-- a body is delivered or discarded -/
  | bodyDone (hm : s.rxMode = .body) (ht : t.rxMode = .hdr) (hh : t.hdrBuf = s.hdrBuf) (hb : t.bodyBuf = [])
  /-- a cancelled attempt ends in STOPPED -/
  | stops (hm : s.rxMode = .hdr) (hc : s.cancel = true) (ht : t.rxMode = .stopped) (hh : t.hdrBuf = [])
      (hb : t.bodyBuf = s.bodyBuf)

theorem takeHdr_move {s : State} (he : takeHdrEnabled s = true) : RxMove s (takeHdr s) := by
  obtain ⟨hm, ha, hn, hstart⟩ := (takeHdrEnabled_iff s).1 he
  obtain ⟨_, hq⟩ := (rxAvail_iff s).1 ha
  obtain ⟨b, rest, hq⟩ := List.exists_cons_of_ne_nil hq
  rw [takeHdr, hq]
  dsimp only
  by_cases hshort : s.hdrBuf.length < 4
  · rw [headerCheck_short (by simp; omega)]
    exact .headerByte hm hstart hm (by simp) (by simp; omega) rfl
  · have hlen : s.hdrBuf.length = 4 := by omega
    obtain ⟨m0, m1, hi, lo, hbuf⟩ := List.length_eq_four.1 hlen
    have hne : s.hdrBuf ≠ [] := by rw [hbuf]; nofun
    have hfull : s.hdrBuf ++ [b] = [m0, m1, hi, lo, b] := by rw [hbuf]; rfl
    rw [headerCheck_full hfull]
    split
    · exact .headerDone hm hne rfl rfl rfl
    · exact .headerDropped hm hne hm rfl rfl

theorem deliver_rx (P : Params) (s : State) :
    (deliver P s).rxMode = .hdr ∧ (deliver P s).bodyBuf = [] ∧ (deliver P s).hdrBuf = s.hdrBuf := by
  unfold deliver deliverLen0
  refine ⟨rfl, rfl, ?_⟩
  split
  · cases P.len0 <;> rfl
  · rfl

theorem takeBody_move (P : Params) {s : State} (he : takeBodyEnabled s = true) : RxMove s (takeBody P s) := by
  obtain ⟨hm, ha, hn⟩ := (takeBodyEnabled_iff s).1 he
  obtain ⟨_, hq⟩ := (rxAvail_iff s).1 ha
  obtain ⟨b, rest, hq⟩ := List.exists_cons_of_ne_nil hq
  rw [takeBody, hq]
  dsimp only
  split
  · obtain ⟨hmode, hbody, hhdr⟩ := deliver_rx P { s with rxq := rest, bodyBuf := s.bodyBuf ++ [b] }
    exact .bodyDone hm hmode hhdr hbody
  · rename_i hlast
    simp only [List.length_append, List.length_singleton] at hlast
    exact .bodyByte hm hm rfl rfl (by simp) (by simp; omega)

theorem deframerStep_of_takeHdr (P : Params) {s : State} (he : takeHdrEnabled s = true) :
    deframerStep P s = takeHdr s :=
  if_pos he

/-- Where `DF_TAKE_BODY` is enabled the turn is it: `DF_TAKE_HDR` asks for HDR. -/
theorem deframerStep_of_takeBody (P : Params) {s : State} (he : takeBodyEnabled s = true) :
    deframerStep P s = takeBody P s := by
  have hHdr : takeHdrEnabled s = false := by simp [takeHdrEnabled, ((takeBodyEnabled_iff s).1 he).1]
  simp [deframerStep, hHdr, he]

/-- A deframer turn moves, or it leaves the registers and none of its steps is enabled but `DF_LINK_DOWN`. -/
theorem deframerStep_move (P : Params) (s : State) :
    RxMove s (deframerStep P s) ∨
    (RxSame s (deframerStep P s) ∧ (s.cancel = true → deframerEnabled s = false)) := by
  by_cases he : deframerEnabled s = true
  · simp only [deframerEnabled, Bool.or_eq_true] at he
    rcases he with ((h | h) | h) | h
    · exact .inl (deframerStep_of_takeHdr P h ▸ takeHdr_move h)
    · exact .inl (deframerStep_of_takeBody P h ▸ takeBody_move P h)
    · rw [deframerStep_dfCancel P h]
      obtain ⟨hm, hb, hc⟩ := (dfCancelEnabled_iff s).1 h
      exact .inl (.stops hm hc rfl hb rfl)
    · rw [deframerStep_dfLinkDown P h]
      obtain ⟨_, _, hc, _⟩ := (linkDownEnabled_iff s).1 h
      exact .inr ⟨⟨rfl, rfl, rfl, rfl⟩, fun hc' => by simp [hc] at hc'⟩
  · have he : deframerEnabled s = false := by simpa using he
    rw [deframerStep_hold P he]
    exact .inr ⟨⟨rfl, rfl, rfl, rfl⟩, fun _ => he⟩

/-- A read timeout moves, or it leaves the registers; with `CANCEL` set it moves wherever it is enabled. -/
theorem rxTimeout_move (P : Params) (s : State) :
    RxMove s (rxTimeout P s) ∨
    (RxSame s (rxTimeout P s) ∧ (s.cancel = true → rxTimeoutEnabled s = false)) := by
  by_cases he : rxTimeoutEnabled s = true
  · obtain ⟨hrun, ha⟩ := (rxTimeoutEnabled_iff s).1 he
    have hn := (rxAvail_eq_false_iff s).1 ha
    cases hm : s.rxMode with
    | stopped => exact absurd hm hrun
    | hdr =>
      rw [rxTimeout_hdr P hm hn]
      by_cases hc : s.cancel = true
      · rw [hdrTimeout_cancel P hc]
        exact .inl (.stops hm hc rfl rfl rfl)
      · have hc : s.cancel = false := by simpa using hc
        by_cases hkeep : s.hdrBuf = [] ∨ P.hdrShort = .keep
        · rw [hdrTimeout_keep P hc hkeep]
          exact .inr ⟨⟨rfl, rfl, rfl, rfl⟩, fun hc' => by simp [hc] at hc'⟩
        · obtain ⟨hne, hshort⟩ := not_or.1 hkeep
          have hdiscard : P.hdrShort = .discard := by
            cases hs : P.hdrShort with
            | keep => exact absurd hs hshort
            | discard => rfl
          rw [hdrTimeout_discard P hc hne hdiscard]
          exact .inl (.headerDropped hm hne hm rfl rfl)
    | body =>
      rw [rxTimeout_body P hm hn]
      exact .inl (.bodyDone hm rfl rfl rfl)
  · have he : rxTimeoutEnabled s = false := by simpa using he
    have hsame : rxTimeout P s = s := by simp [rxTimeout, he]
    rw [hsame]
    exact .inr ⟨⟨rfl, rfl, rfl, rfl⟩, fun _ => he⟩

/-- No turn but the completion of a held request writes the registers otherwise. -/
theorem afterTurn_rx {turn : Turn} {s t : State} (h : AfterTurn turn s t) (hn : turn ≠ .complete) :
    RxSame s t ∨ RxMove s t := by
  have hm := congrArg State.rxMode (afterTurn_frame h)
  have hh := congrArg State.hdrBuf (afterTurn_frame h)
  have hl := congrArg State.frLen (afterTurn_frame h)
  have hb := congrArg State.bodyBuf (afterTurn_frame h)
  cases turn with
  | complete => exact absurd rfl hn
  | deframer => cases h; exact (deframerStep_move _ s).symm.imp_left And.left
  | rxTimeout => cases h; exact (rxTimeout_move _ s).symm.imp_left And.left
  | _ => exact .inl ⟨hm, hh, hl, hb⟩

/-! ## The buffers stay within their bounds -/

/-- The clauses of `Legal` on `HDR_BUF` (R24) and `BODY_BUF` (R27). -/
def BuffersFit (s : State) : Prop :=
  s.hdrBuf.length ≤ 4 ∧ (s.rxMode ≠ .hdr → s.hdrBuf = []) ∧
  (s.rxMode = .body → s.bodyBuf.length ≤ s.frLen.toNat) ∧ (s.rxMode ≠ .body → s.bodyBuf = [])

theorem buffersFit_of_same {s t : State} (hs : BuffersFit s) (h : RxSame s t) : BuffersFit t := by
  obtain ⟨hm, hh, hl, hb⟩ := h
  rw [BuffersFit, hm, hh, hl, hb]
  exact hs

/-- Two empty buffers fit in every mode. -/
theorem buffersFit_of_empty {s : State} (hh : s.hdrBuf = []) (hb : s.bodyBuf = []) : BuffersFit s := by
  simp [BuffersFit, hh, hb]

theorem buffersFit_of_move {s t : State} (hs : BuffersFit s) (h : RxMove s t) : BuffersFit t := by
  obtain ⟨_, hhdr, _, hbody⟩ := hs
  cases h with
  | headerByte hm _ ht _ hmax hb =>
    have hempty : t.bodyBuf = [] := by rw [hb, hbody (by simp [hm])]
    exact ⟨hmax, fun hne => absurd ht hne, fun hne => by simp [ht] at hne, fun _ => hempty⟩
  | headerDone _ _ _ hh hb => exact buffersFit_of_empty hh hb
  | headerDropped hm _ _ hh hb => exact buffersFit_of_empty hh (by rw [hb, hbody (by simp [hm])])
  | bodyByte hm ht hh _ _ hmax =>
    have hempty : t.hdrBuf = [] := by rw [hh, hhdr (by simp [hm])]
    exact ⟨by simp [hempty], fun _ => hempty, fun _ => hmax, fun hne => absurd ht hne⟩
  | bodyDone hm _ hh hb => exact buffersFit_of_empty (by rw [hh, hhdr (by simp [hm])]) hb
  | stops hm _ _ hh hb => exact buffersFit_of_empty hh (by rw [hb, hbody (by simp [hm])])

theorem buffersFit_completeJoin {s : State} (hs : BuffersFit s) : BuffersFit (completeJoin s) := by
  rcases completeJoin_cases s with ⟨_, _, _, h⟩ | ⟨_, _, _, h⟩ | ⟨_, h⟩ <;> rw [h]
  · exact buffersFit_of_empty rfl rfl
  · exact hs
  · exact hs

theorem buffersFit_of_afterTurn {turn : Turn} {s t : State} (hs : BuffersFit s) (h : AfterTurn turn s t) :
    BuffersFit t := by
  by_cases hn : turn = .complete
  · subst hn
    cases h
    exact buffersFit_completeJoin hs
  · rcases afterTurn_rx h hn with hsame | hmove
    · exact buffersFit_of_same hs hsame
    · exact buffersFit_of_move hs hmove

/-! ## A cancelled attempt runs out -/

theorem attemptLeft_of_same {s t : State} (h : RxSame s t) : attemptLeft t = attemptLeft s := by
  obtain ⟨hm, hh, hl, hb⟩ := h
  rw [attemptLeft, hm, hh, hl, hb]
  rfl

theorem attemptLeft_stopped {s : State} (hm : s.rxMode = .stopped) : attemptLeft s = 0 := by
  rw [attemptLeft, hm]

theorem attemptLeft_start {s : State} (hm : s.rxMode = .hdr) (hh : s.hdrBuf = []) : attemptLeft s = 1 := by
  rw [attemptLeft, hm, hh]
  rfl

theorem attemptLeft_header {s : State} (hm : s.rxMode = .hdr) (hh : s.hdrBuf ≠ []) :
    attemptLeft s = 65537 + (5 - s.hdrBuf.length) := by
  rw [attemptLeft, hm]
  exact if_neg hh

theorem attemptLeft_body {s : State} (hm : s.rxMode = .body) :
    attemptLeft s = s.frLen.toNat + 2 - s.bodyBuf.length := by
  rw [attemptLeft, hm]

/-- With `CANCEL` set every move leaves fewer steps (R275). -/
theorem attemptLeft_of_move {s t : State} (hs : BuffersFit s) (hc : s.cancel = true) (h : RxMove s t) :
    attemptLeft t < attemptLeft s := by
  obtain ⟨hmax4, hhdr, hfits, _⟩ := hs
  cases h with
  | headerByte hm hstart ht hlen hmax _ =>
    have hne : s.hdrBuf ≠ [] := hstart.resolve_right (by simp [hc])
    have hne' : t.hdrBuf ≠ [] := by rw [← List.length_pos_iff]; omega
    rw [attemptLeft_header hm hne, attemptLeft_header ht hne']
    omega
  | headerDone hm hne ht _ hb =>
    have := t.frLen.isLt
    rw [attemptLeft_header hm hne, attemptLeft_body ht]
    omega
  | headerDropped hm hne ht hh _ =>
    rw [attemptLeft_header hm hne, attemptLeft_start ht hh]
    omega
  | bodyByte hm ht _ hl hlen hmax =>
    rw [attemptLeft_body hm, attemptLeft_body ht, hl, hlen]
    rw [hl] at hmax
    omega
  | bodyDone hm ht hh _ =>
    have := hfits hm
    rw [attemptLeft_body hm, attemptLeft_start ht (hh.trans (hhdr (by simp [hm])))]
    omega
  | stops hm _ ht hh _ =>
    rw [attemptLeft_stopped ht]
    by_cases hne : s.hdrBuf = []
    · rw [attemptLeft_start hm hne]; omega
    · rw [attemptLeft_header hm hne]; omega

theorem attemptLeft_le (s : State) : attemptLeft s ≤ 65541 := by
  cases hm : s.rxMode with
  | stopped => rw [attemptLeft_stopped hm]; omega
  | hdr =>
    by_cases hh : s.hdrBuf = []
    · rw [attemptLeft_start hm hh]; omega
    · have := List.length_pos_iff.2 hh
      rw [attemptLeft_header hm hh]; omega
  | body =>
    have := s.frLen.isLt
    rw [attemptLeft_body hm]; omega

theorem attemptLeft_eq_zero_iff {s : State} (hs : BuffersFit s) : attemptLeft s = 0 ↔ s.rxMode = .stopped := by
  obtain ⟨_, _, hfits, _⟩ := hs
  refine ⟨fun h0 => ?_, attemptLeft_stopped⟩
  cases hm : s.rxMode with
  | stopped => rfl
  | hdr =>
    by_cases hh : s.hdrBuf = []
    · rw [attemptLeft_start hm hh] at h0; omega
    · rw [attemptLeft_header hm hh] at h0; omega
  | body =>
    have := hfits hm
    rw [attemptLeft_body hm] at h0; omega

/-- Until it is STOPPED a cancelled deframer has an enabled step, or the read timeout is enabled. -/
theorem cancelled_enabled {s : State} (hs : BuffersFit s) (hc : s.cancel = true) (hm : s.rxMode ≠ .stopped) :
    deframerEnabled s = true ∨ rxTimeoutEnabled s = true := by
  obtain ⟨hmax4, _, hfits, _⟩ := hs
  by_cases ha : rxAvail s = true
  · left
    simp only [deframerEnabled, Bool.or_eq_true]
    cases hmode : s.rxMode with
    | stopped => exact absurd hmode hm
    | hdr =>
      by_cases hh : s.hdrBuf = []
      · exact .inl (.inr ((dfCancelEnabled_iff s).2 ⟨hmode, hh, hc⟩))
      · exact .inl (.inl (.inl ((takeHdrEnabled_iff s).2 ⟨hmode, ha, by omega, .inl hh⟩)))
    | body => exact .inl (.inl (.inr ((takeBodyEnabled_iff s).2 ⟨hmode, ha, by have := hfits hmode; omega⟩)))
  · exact .inr ((rxTimeoutEnabled_iff s).2 ⟨hm, by simpa using ha⟩)

/-- With `CANCEL` set no turn but a completion takes it back, takes the held request away, or leaves more steps. -/
theorem cancelled_afterTurn {turn : Turn} {s t : State} (hs : BuffersFit s) (hc : s.cancel = true)
    (h : AfterTurn turn s t) (hn : turn ≠ .complete) :
    t.cancel = true ∧ attemptLeft t ≤ attemptLeft s ∧ (s.join ≠ none → t.join = s.join) := by
  have hleft : attemptLeft t ≤ attemptLeft s := by
    rcases afterTurn_rx h hn with hsame | hmove
    · exact (attemptLeft_of_same hsame).le
    · exact (attemptLeft_of_move hs hc hmove).le
  rcases afterTurn_cancel h with ⟨hcancel, hjoin⟩ | ⟨hj, hcancel, _⟩ | ⟨hcomplete, _⟩
  · exact ⟨hcancel.trans hc, hleft, fun _ => hjoin⟩
  · exact ⟨hcancel, hleft, fun hheld => absurd hj hheld⟩
  · exact absurd hcomplete hn

end Sys2Proof.Proofs
end

section
/-! The laws of every step, read off what one turn leaves. -/

namespace Sys2Proof.Proofs

open Sys2Proof.Machine Sys2Proof.Safety Sys2Proof.Config

/-! ## Steps and turns -/

/-- Settles O4: every turn's operation is a function of the state, and every accepting step answers a next state. -/
theorem everyStepAnswersNext : Obligations.EveryStepAnswersNext := by
  intro s
  cases ha : s.agenda with
  | nil => exact ⟨s, by simp only [step, stepAgenda, ha]⟩
  | cons turn rest =>
    simp only [step, stepAgenda, ha]
    cases turn with
    | serve r =>
      simp only [runTurn, serveTurn]
      split
      · exact ⟨_, rfl⟩
      · obtain ⟨t, ht, _⟩ := exec_cases _ _
        exact ⟨t, ht⟩
    | _ => exact ⟨_, rfl⟩

/-! ## The queues -/

/-- Settles O27: a turn that writes `TXQ` sends a frame or is the environment's. -/
theorem txqGrowsByWholeFrames : Obligations.TxqGrowsByWholeFrames := by
  intro s t h
  rcases step_turn h with rfl | ⟨turn, ha, ht⟩
  · exact .inl rfl
  · rcases afterTurn_txq ht with hsame | ⟨htail, rfl⟩ | ⟨⟨p, hp, hl, htx, hev⟩, hwho⟩
    · exact .inl hsame
    · exact .inr (.inl ⟨htail, ha⟩)
    · refine .inr (.inr ⟨p, hp, hl, htx, hev, ?_⟩)
      rcases hwho with ⟨r, q, rfl, hq⟩ | ⟨rfl, hq⟩
      · exact .inl ⟨r, q, ha, hq⟩
      · exact .inr ⟨ha, hq⟩

/-- Settles O38: of the turns only the deframer's, an arriving byte and the completion of `OPEN` write `RXQ`. -/
theorem rxqIsConsumedFromItsHead : Obligations.RxqIsConsumedFromItsHead := by
  intro s t h
  rcases step_turn h with rfl | ⟨turn, ha, ht⟩
  · exact .inl rfl
  · rcases afterTurn_rxq ht with hsame | ⟨htail, rfl⟩ | ⟨b, hpush, rfl⟩ | ⟨r, hempty, rfl, hj⟩
    · exact .inl hsame
    · exact .inr (.inl ⟨htail, ha⟩)
    · exact .inr (.inr (.inl ⟨b, hpush, ha⟩))
    · exact .inr (.inr (.inr ⟨r, hempty, ha, hj⟩))

/-- Settles O58: a turn of the block appends at most one event, and the host's takes the head. -/
theorem evqIsAFifo : Obligations.EvqIsAFifo := by
  intro s t h
  rcases step_turn h with rfl | ⟨turn, ha, ht⟩
  · exact .inl rfl
  · rcases afterTurn_evq ht with (hsame | ⟨e, _, he⟩) | ⟨htail, rfl⟩
    · exact .inl hsame
    · exact .inr (.inl ⟨e, he⟩)
    · exact .inr (.inr ⟨htail, ha⟩)

/-! ## Replies -/

/-- Events of the block stay events of the block over a turn. -/
theorem eventsOfBlock_of_afterTurn {turn : Turn} {s t : State} (h : AfterTurn turn s t)
    (hs : ∀ e ∈ s.evq, eventOfBlock e = true) : ∀ e ∈ t.evq, eventOfBlock e = true := by
  intro e he
  rcases afterTurn_evq h with (hsame | ⟨e', he', hadd⟩) | ⟨htail, _⟩
  · exact hs e (hsame ▸ he)
  · rw [hadd, List.mem_append, List.mem_singleton] at he
    rcases he with he | rfl
    · exact hs e he
    · exact he'
  · exact hs e (List.mem_of_mem_tail (htail ▸ he))

/-- Replies of the block stay replies of the block over a turn. -/
theorem repliesOfBlock_of_afterTurn {turn : Turn} {s t : State} (h : AfterTurn turn s t)
    (hs : ∀ r ∈ s.replies, raisedByBlock r.status = true) : ∀ r ∈ t.replies, raisedByBlock r.status = true := by
  by_cases hn : ∀ r i, turn ≠ .present r i
  · obtain ⟨rs, hadd, hrs, _⟩ := answers_of_afterTurn h hn
    rw [hadd]
    exact List.forall_mem_append.2 ⟨hs, hrs⟩
  · push Not at hn
    obtain ⟨r, i, rfl⟩ := hn
    have hsame := congrArg State.replies (afterTurn_frame h)
    exact fun r hr => hs r (hsame ▸ hr)

/-- Settles O56: what a turn adds to `EVQ` and to the replies carries statuses of the block only. -/
theorem dispatcherStatusesAreNeverRaised : Obligations.DispatcherStatusesAreNeverRaised := by
  intro s t hs h
  obtain ⟨hev, hre⟩ := hs
  rcases step_turn h with rfl | ⟨turn, _, ht⟩
  · exact ⟨hev, hre⟩
  · exact ⟨eventsOfBlock_of_afterTurn ht hev, repliesOfBlock_of_afterTurn ht hre⟩

/-- Settles O57: a turn that presents nothing answers some of the outstanding requests; one that presents a request adds
no reply. -/
theorem everyRequestGetsOneReply : Obligations.EveryRequestGetsOneReply := by
  intro s t hlegal h
  obtain ⟨_, _, _, _, hseq, _, _⟩ := hlegal
  rcases step_turn h with rfl | ⟨turn, ha, ht⟩
  · exact ⟨[], (List.append_nil _).symm, fun _ => .refl _, fun _ _ _ _ => ⟨rfl, .inl rfl⟩⟩
  · by_cases hn : ∀ r i, turn ≠ .present r i
    · obtain ⟨rs, hadd, _, hperm⟩ := answers_of_afterTurn ht hn
      refine ⟨rs, hadd, fun _ => hperm hseq.1, fun r i rest hpresent => ?_⟩
      rw [ha, List.cons.injEq] at hpresent
      exact absurd hpresent.1 (hn r i)
    · push Not at hn
      obtain ⟨r, i, rfl⟩ := hn
      have hsame := congrArg State.replies (afterTurn_frame ht)
      refine ⟨[], hsame.trans (List.append_nil _).symm, fun hnone => absurd ha (hnone r i _),
        fun r' i' rest hpresent => ?_⟩
      rw [ha, List.cons.injEq, Turn.present.injEq] at hpresent
      obtain ⟨⟨rfl, _⟩, _⟩ := hpresent
      rw [show t = presentRequest r i { s with agenda := t.agenda } from ht]
      exact ⟨rfl, presentRequest_outstanding r i { s with agenda := t.agenda }⟩

/-! ## The invariant -/

/-- `CANCEL` is set while an `OPEN` or `CLOSE` is held. -/
def JoinCancels (s : State) : Prop := s.join ≠ none → s.cancel = true

theorem joinCancels_of_afterTurn {turn : Turn} {s t : State} (hs : JoinCancels s) (h : AfterTurn turn s t) :
    JoinCancels t := by
  rcases afterTurn_cancel h with ⟨hcancel, hjoin⟩ | ⟨_, hcancel, _⟩ | ⟨_, _, hjoin, _⟩
  · rw [JoinCancels, hcancel, hjoin]; exact hs
  · exact fun _ => hcancel
  · exact fun hne => absurd hjoin hne

/-- The invariant by its parts. -/
theorem legal_iff (s : State) :
    Legal s ↔ BuffersFit s ∧ SeqPending s ∧ JoinCancels s ∧ (outstanding s).Nodup := by
  simp only [Legal, BuffersFit, SeqPending, JoinCancels, and_assoc]

/-- No requester gets a second request outstanding: a step takes requesters away or adds one who had none. -/
theorem step_keeps_nodup {s t : State} (hs : Legal s) (h : step s = .next t) : (outstanding t).Nodup := by
  obtain ⟨_, _, _, hnodup⟩ := (legal_iff s).1 hs
  obtain ⟨rs, _, hanswered, hpresented⟩ := everyRequestGetsOneReply s t hs h
  by_cases hn : ∀ r i rest, s.agenda ≠ .present r i :: rest
  · exact (((hanswered hn).nodup_iff).1 hnodup).of_append_right
  · push Not at hn
    obtain ⟨r, i, rest, ha⟩ := hn
    rcases (hpresented r i rest ha).2 with hsame | ⟨hnew, hperm⟩
    · rw [hsame]; exact hnodup
    · exact hperm.nodup_iff.2 (List.nodup_cons.2 ⟨hnew, hnodup⟩)

/-- Settles O3, part by part of the invariant. -/
theorem stepKeepsTheInvariant : Obligations.StepKeepsTheInvariant := by
  intro s t hs h
  have hnodup := step_keeps_nodup hs h
  rcases step_turn h with rfl | ⟨turn, _, ht⟩
  · exact hs
  · obtain ⟨hfit, hseq, hjoin, _⟩ := (legal_iff s).1 hs
    exact (legal_iff t).2 ⟨buffersFit_of_afterTurn (s := { s with agenda := t.agenda }) hfit ht,
      seqPending_of_afterTurn (s := { s with agenda := t.agenda }) hseq ht,
      joinCancels_of_afterTurn (s := { s with agenda := t.agenda }) hjoin ht, hnodup⟩

/-! ## Who writes what -/

/-- Settles O59, register by register. -/
theorem sharedRegistersHaveTheirWriters : Obligations.SharedRegistersHaveTheirWriters := by
  intro s t h
  rcases step_turn h with rfl | ⟨turn, ha, ht⟩
  · exact ⟨absurd rfl, absurd rfl, absurd rfl, absurd rfl⟩
  · refine ⟨fun hne => ?crcAcc, fun hne => ?link, fun hne => ?dataMode, fun hne => ?cancel⟩
    case crcAcc =>
      obtain ⟨r, q, rfl, hq, hop⟩ := (afterTurn_crcAcc ht).resolve_left hne
      exact ⟨r, q, ha, hq, hop⟩
    case link => exact (afterTurn_link ht).resolve_left hne ▸ ha
    case dataMode => exact (afterTurn_dataMode ht).resolve_left hne ▸ ha
    case cancel =>
      rcases afterTurn_cancel ht with ⟨hsame, _⟩ | ⟨_, hc, r, q, rfl, hq, hop⟩ | ⟨rfl, _, _, hsame | ⟨r, hj, hc⟩⟩
      · exact absurd hsame hne
      · exact .inl ⟨r, q, ha, hq, hop, hc⟩
      · exact absurd hsame hne
      · exact .inr ⟨r, ha, hj, hc⟩

end Sys2Proof.Proofs
end

section
/-! Runs of the deframer (40_framer.md section 2; 70_reset_and_hazards.md R275): a frame is delivered whole, a wrong
header is discarded whole, and a cancelled deframer stops. -/

namespace Sys2Proof.Proofs

open Sys2Proof.Machine Sys2Proof.Safety Sys2Proof.Config

/-! ## Which steps are enabled together -/

/-- Settles O28. The taking steps ask for different modes, and the other two for HDR; there an empty header enables one
of `DF_TAKE_HDR`, `DF_CANCEL` and `DF_LINK_DOWN`, by `CANCEL` and by whether a byte is available, which the timeout
asks not to be so. -/
theorem deframerStepsExcludeEachOther : Obligations.DeframerStepsExcludeEachOther := by
  intro s
  simp only [takeHdrEnabled_iff, takeBodyEnabled_iff, dfCancelEnabled_iff, linkDownEnabled_iff, rxTimeoutEnabled_iff]
  refine ⟨?hdrBody, ?hdrCancel, ?hdrDown, ?bodyCancel, ?bodyDown, ?cancelDown, ?hdrTimeout, ?bodyTimeout⟩
  case hdrBody => rintro ⟨⟨hHdr, _⟩, hBody, _⟩; cases hHdr.symm.trans hBody
  case hdrCancel =>
    rintro ⟨⟨_, _, _, hstart⟩, _, hempty, hc⟩
    exact hstart.elim (absurd hempty) fun hc' => by cases hc.symm.trans hc'
  case hdrDown =>
    rintro ⟨⟨_, ha, _⟩, _, _, _, hdown⟩
    cases hdown.symm.trans ((rxAvail_iff s).1 ha).1
  case bodyCancel => rintro ⟨⟨hBody, _⟩, hHdr, _⟩; cases hHdr.symm.trans hBody
  case bodyDown => rintro ⟨⟨hBody, _⟩, hHdr, _⟩; cases hHdr.symm.trans hBody
  case cancelDown => rintro ⟨⟨_, _, hc⟩, _, _, hc', _⟩; cases hc.symm.trans hc'
  case hdrTimeout => rintro ⟨⟨_, ha, _⟩, _, hnone⟩; cases ha.symm.trans hnone
  case bodyTimeout => rintro ⟨⟨_, ha, _⟩, _, hnone⟩; cases ha.symm.trans hnone

/-! ## A cancelled deframer -/

/-- An enabled step of a cancelled deframer leaves fewer. -/
theorem deframer_lowers {s t : State} {rest : List Turn} (hs : BuffersFit s) (hc : s.cancel = true)
    (ha : s.agenda = .deframer :: rest) (he : deframerEnabled s = true) (h : step s = .next t) :
    attemptLeft t < attemptLeft s := by
  obtain rfl : t = deframerStep Config.params { s with agenda := rest } := afterTurn_of_step ha h
  rcases deframerStep_move Config.params { s with agenda := rest } with hmove | ⟨_, hidle⟩
  · exact attemptLeft_of_move (s := { s with agenda := rest }) hs hc hmove
  · cases he.symm.trans (hidle hc)

/-- An enabled read timeout of a cancelled deframer leaves fewer. -/
theorem rxTimeout_lowers {s t : State} {rest : List Turn} (hs : BuffersFit s) (hc : s.cancel = true)
    (ha : s.agenda = .rxTimeout :: rest) (he : rxTimeoutEnabled s = true) (h : step s = .next t) :
    attemptLeft t < attemptLeft s := by
  obtain rfl : t = rxTimeout Config.params { s with agenda := rest } := afterTurn_of_step ha h
  rcases rxTimeout_move Config.params { s with agenda := rest } with hmove | ⟨_, hidle⟩
  · exact attemptLeft_of_move (s := { s with agenda := rest }) hs hc hmove
  · cases he.symm.trans (hidle hc)

/-- Settles O53: every move of the deframer's registers leaves fewer steps, and no other turn writes them until the
deframer is STOPPED. -/
theorem cancelledAttemptRunsOut : Obligations.CancelledAttemptRunsOut := by
  intro s hlegal hc
  obtain ⟨hfit, _⟩ := (legal_iff s).1 hlegal
  refine ⟨attemptLeft_le s, attemptLeft_eq_zero_iff hfit, fun hm => ⟨cancelled_enabled hfit hc hm, fun t h => ?_⟩⟩
  have hkept : t.cancel = true ∧ attemptLeft t ≤ attemptLeft s ∧ (s.join ≠ none → t.join = s.join) := by
    rcases step_turn h with rfl | ⟨turn, _, ht⟩
    · exact ⟨hc, le_rfl, fun _ => rfl⟩
    · by_cases hn : turn = .complete
      · subst hn
        have hwait : t = { s with agenda := t.agenda } := ht.trans (completeJoin_waits hm)
        rw [hwait]
        exact ⟨hc, le_rfl, fun _ => rfl⟩
      · exact cancelled_afterTurn (s := { s with agenda := t.agenda }) hfit hc ht hn
  obtain ⟨hcancel, hleft, hjoin⟩ := hkept
  exact ⟨hcancel, hleft, hjoin, fun rest ha he => deframer_lowers hfit hc ha he h,
    fun rest ha he => rxTimeout_lowers hfit hc ha he h⟩

/-- `CANCEL` and the held request are kept, and the invariant holds. -/
def CancelKept (s t : State) : Prop :=
  Legal t ∧ t.cancel = true ∧ (s.join ≠ none → t.join = s.join)

theorem cancelKept_trans {s t u : State} (hst : CancelKept s t) (htu : CancelKept t u) : CancelKept s u := by
  obtain ⟨_, _, hjoin⟩ := hst
  obtain ⟨hlegal, hc, hjoin'⟩ := htu
  refine ⟨hlegal, hc, fun hne => ?_⟩
  have ht := hjoin hne
  exact (hjoin' (by rwa [ht])).trans ht

/-- One turn of a schedule. -/
theorem step_cancelled {s : State} {turn : Turn} {rest : List Turn} (hs : Legal s) (hc : s.cancel = true)
    (ha : s.agenda = turn :: rest) (hn : turn ≠ .complete) :
    ∃ t, step s = .next t ∧ t.agenda = rest ∧ CancelKept s t ∧ attemptLeft t ≤ attemptLeft s := by
  obtain ⟨t, h⟩ := everyStepAnswersNext s
  have ht := afterTurn_of_step ha h
  obtain ⟨hfit, _⟩ := (legal_iff s).1 hs
  obtain ⟨hcancel, hleft, hjoin⟩ := cancelled_afterTurn (s := { s with agenda := rest }) hfit hc ht hn
  exact ⟨t, h, afterTurn_agenda ht, ⟨stepKeepsTheInvariant s t hs h, hcancel, hjoin⟩, hleft⟩

/-- One round of a schedule leaves fewer steps: where no step of the deframer is enabled, its turn leaves the read
timeout enabled. -/
theorem round_cancelled {s : State} {rest : List Turn} (hs : Legal s) (hc : s.cancel = true)
    (ha : s.agenda = .deframer :: .rxTimeout :: rest) :
    ∃ t, runSteps 2 s = .next t ∧ t.agenda = rest ∧ CancelKept s t ∧ attemptLeft t ≤ attemptLeft s - 1 := by
  obtain ⟨t, hstep, hat, hkept, hleft⟩ := step_cancelled hs hc ha nofun
  have ⟨hlegal, hct, _⟩ := hkept
  obtain ⟨u, hstep', hau, hkept', hleft'⟩ := step_cancelled hlegal hct hat nofun
  refine ⟨u, by rw [runSteps_succ 1 hstep, runSteps_succ 0 hstep', runSteps_zero], hau,
    cancelKept_trans hkept hkept', ?_⟩
  obtain ⟨hfit, _⟩ := (legal_iff s).1 hs
  obtain ⟨hfitt, _⟩ := (legal_iff t).1 hlegal
  by_cases hm : s.rxMode = .stopped
  · rw [attemptLeft_stopped hm] at hleft ⊢; omega
  · by_cases hd : deframerEnabled s = true
    · have := deframer_lowers hfit hc ha hd hstep
      omega
    · have hr : rxTimeoutEnabled s = true := (cancelled_enabled hfit hc hm).resolve_left hd
      have hold : t = { s with agenda := .rxTimeout :: rest } :=
        (afterTurn_of_step ha hstep).trans
          (deframerStep_hold (s := { s with agenda := .rxTimeout :: rest }) _ (Bool.eq_false_iff.2 hd))
      have hrt : rxTimeoutEnabled t = true := by rw [hold]; exact hr
      have := rxTimeout_lowers hfitt hct hat hrt hstep'
      omega

/-- A schedule with no completion keeps `CANCEL` and the held request, and each of its rounds leaves fewer steps. -/
theorem run_cancelled {later : List Turn} (sched : List Turn) {s : State} (hs : Legal s) (hc : s.cancel = true)
    (hn : Turn.complete ∉ sched) (ha : s.agenda = sched ++ later) :
    ∃ t, runSteps sched.length s = .next t ∧ t.agenda = later ∧ CancelKept s t ∧
      attemptLeft t ≤ attemptLeft s - rounds sched := by
  induction sched using rounds.induct generalizing s with
  | case1 rest ih =>
    obtain ⟨t, hrun, hat, hkept, hleft⟩ := round_cancelled hs hc ha
    have ⟨hlegal, hct, _⟩ := hkept
    have hrest : Turn.complete ∉ rest := List.not_mem_of_not_mem_cons (List.not_mem_of_not_mem_cons hn)
    obtain ⟨u, hrun', hau, hkept', hleft'⟩ := ih hlegal hct hrest hat
    refine ⟨u, ?_, hau, cancelKept_trans hkept hkept', ?_⟩
    · rw [List.length_cons, List.length_cons, Nat.add_assoc, Nat.add_comm, runSteps_add 2 _ hrun, hrun']
    · rw [rounds]; omega
  | case2 turn rest hround ih =>
    obtain ⟨t, hstep, hat, hkept, hleft⟩ := step_cancelled hs hc ha (List.ne_of_not_mem_cons hn).symm
    have ⟨hlegal, hct, _⟩ := hkept
    obtain ⟨u, hrun, hau, hkept', hleft'⟩ := ih hlegal hct (List.not_mem_of_not_mem_cons hn) hat
    refine ⟨u, ?_, hau, cancelKept_trans hkept hkept', ?_⟩
    · rw [List.length_cons, runSteps_succ _ hstep, hrun]
    · rw [rounds.eq_2 _ _ hround]; omega
  | case3 => exact ⟨s, rfl, ha, ⟨hs, hc, fun _ => rfl⟩, le_rfl⟩

/-- A completion turn with the deframer STOPPED gives the held request its reply. -/
theorem completeJoin_replies {s : State} {r : Nat} {kind : JoinKind} (hj : s.join = some ⟨r, kind⟩)
    (hm : s.rxMode = .stopped) :
    (completeJoin s).join = none ∧ (completeJoin s).agenda = s.agenda ∧
      (completeJoin s).replies = s.replies ++ [⟨r, .ok, .none⟩] := by
  cases kind with
  | opening => rw [completeJoin_opening hj hm]; exact ⟨rfl, rfl, rfl⟩
  | closing => rw [completeJoin_closing hj hm]; exact ⟨rfl, rfl, rfl⟩

/-- Settles O54: at most 65541 steps are left, each round takes one, and with none left the deframer is STOPPED. -/
theorem cancelledDeframerStops : Obligations.CancelledDeframerStops := by
  intro sched later s hs hc hn hrounds ha
  obtain ⟨t, hrun, hat, ⟨hlegal, hct, hjoin⟩, hleft⟩ := run_cancelled sched hs hc hn ha
  obtain ⟨hfit, _⟩ := (legal_iff t).1 hlegal
  have hmax := attemptLeft_le s
  have hm : t.rxMode = .stopped := (attemptLeft_eq_zero_iff hfit).1 (by omega)
  refine ⟨t, hrun, hm, hct, hat, hjoin, fun r k rest hj hlater => ?_⟩
  have hjt : t.join = some ⟨r, k⟩ := (hjoin (by rw [hj]; nofun)).trans hj
  obtain ⟨u, hstep⟩ := everyStepAnswersNext t
  obtain rfl : u = completeJoin { t with agenda := rest } := afterTurn_of_step (hat.trans hlater) hstep
  refine ⟨_, ?_, completeJoin_replies (s := { t with agenda := rest }) hjt hm⟩
  rw [runSteps_add _ 1 hrun, runSteps_succ 0 hstep, runSteps_zero]

/-! ## A frame in `RXQ` -/

/-- A step that takes one of the first four header bytes. -/
theorem step_headerByte {s : State} {b : Byte} {rest : List Byte} {later : List Turn} (hm : s.rxMode = .hdr)
    (hc : s.cancel = false) (hl : s.link = true) (hq : s.rxq = b :: rest) (hn : s.hdrBuf.length < 4)
    (ha : s.agenda = .deframer :: later) :
    step s = .next { s with rxq := rest, hdrBuf := s.hdrBuf ++ [b], agenda := later } := by
  obtain ⟨hearly, _⟩ := headerBytesAreTakenAndChecked Config.params { s with agenda := later } hm (.inr hc)
  rw [step_deframer ha, hearly b rest hl hq hn]

/-- A step that takes the fifth byte of a wrong header. -/
theorem step_wrongHeader {s : State} {m0 m1 hi lo code : Byte} {rest : List Byte} {later : List Turn}
    (hm : s.rxMode = .hdr) (hc : s.cancel = false) (hl : s.link = true) (hq : s.rxq = code :: rest)
    (hb : s.hdrBuf = [m0, m1, hi, lo]) (hbad : m0 ≠ 0x5A#8 ∨ m1 ≠ 0xA5#8) (ha : s.agenda = .deframer :: later) :
    step s = .next { s with
      rxq := rest, hdrBuf := [], evq := s.evq ++ [.status .headerMismatch (.header [m0, m1, hi, lo, code])]
      agenda := later } := by
  obtain ⟨_, hwrong, _⟩ := headerBytesAreTakenAndChecked Config.params { s with agenda := later } hm (.inr hc)
  rw [step_deframer ha, hwrong m0 m1 hi lo code rest hl hq hb hbad]

/-- A step that takes the fifth byte of a header with the marker. -/
theorem step_markedHeader {s : State} {hi lo code : Byte} {rest : List Byte} {later : List Turn}
    (hm : s.rxMode = .hdr) (hc : s.cancel = false) (hl : s.link = true) (hq : s.rxq = code :: rest)
    (hb : s.hdrBuf = [0x5A#8, 0xA5#8, hi, lo]) (ha : s.agenda = .deframer :: later) :
    step s = .next { s with
      rxq := rest, hdrBuf := [], bodyBuf := [], rxMode := .body, frLen := hi ++ lo, frCode := code
      agenda := later } := by
  obtain ⟨_, _, hmarked, _⟩ := headerBytesAreTakenAndChecked Config.params { s with agenda := later } hm (.inr hc)
  rw [step_deframer ha, hmarked hi lo code rest hl hq hb]

/-- A step that takes a body byte before the last. -/
theorem step_bodyByte {s : State} {b : Byte} {rest : List Byte} {later : List Turn} (hm : s.rxMode = .body)
    (hl : s.link = true) (hq : s.rxq = b :: rest) (hn : s.bodyBuf.length < s.frLen.toNat)
    (ha : s.agenda = .deframer :: later) :
    step s = .next { s with rxq := rest, bodyBuf := s.bodyBuf ++ [b], agenda := later } := by
  obtain ⟨hbyte, _⟩ := bodyBytesAreTakenAndDelivered Config.params { s with agenda := later } hm
  rw [step_deframer ha, hbyte b rest hl hq hn]

/-- A step that takes the last body byte of a frame that is not empty. -/
theorem step_delivery {s : State} {b : Byte} {rest : List Byte} {later : List Turn} (hm : s.rxMode = .body)
    (hl : s.link = true) (hq : s.rxq = b :: rest) (hn : s.bodyBuf.length = s.frLen.toNat) (hpos : 1 ≤ s.frLen.toNat)
    (ha : s.agenda = .deframer :: later) :
    step s = .next { s with
      rxq := rest, bodyBuf := [], rxMode := .hdr
      evq := s.evq ++ [.payload (s.frCode :: (s.bodyBuf ++ [b]).take (s.frLen.toNat - 1))], agenda := later } := by
  obtain ⟨_, hlast, _⟩ := bodyBytesAreTakenAndDelivered Config.params { s with agenda := later } hm
  rw [step_deframer ha, hlast b rest hl hq hn hpos]

/-- The turns that take the first header bytes, up to four. -/
theorem run_headerBytes (bs : List Byte) {rest : List Byte} {later : List Turn} {s : State} (hm : s.rxMode = .hdr)
    (hc : s.cancel = false) (hl : s.link = true) (hq : s.rxq = bs ++ rest) (hn : s.hdrBuf.length + bs.length ≤ 4)
    (ha : s.agenda = List.replicate bs.length .deframer ++ later) :
    runSteps bs.length s = .next { s with rxq := rest, hdrBuf := s.hdrBuf ++ bs, agenda := later } := by
  induction bs generalizing s with
  | nil =>
    obtain rfl : s.rxq = rest := hq
    obtain rfl : s.agenda = later := ha
    rw [List.append_nil]
    rfl
  | cons b bs ih =>
    rw [List.length_cons] at hn
    have hn' : (s.hdrBuf ++ [b]).length + bs.length ≤ 4 := by simp; omega
    rw [List.length_cons, runSteps_succ _ (step_headerByte hm hc hl hq (by omega) ha)]
    refine (ih (s := { s with
      rxq := bs ++ rest, hdrBuf := s.hdrBuf ++ [b], agenda := List.replicate bs.length .deframer ++ later })
      hm hc hl rfl hn' rfl).trans ?_
    simp

/-- The turns that take the body bytes before the last. -/
theorem run_bodyBytes (bs : List Byte) {rest : List Byte} {later : List Turn} {s : State} (hm : s.rxMode = .body)
    (hl : s.link = true) (hq : s.rxq = bs ++ rest) (hn : s.bodyBuf.length + bs.length ≤ s.frLen.toNat)
    (ha : s.agenda = List.replicate bs.length .deframer ++ later) :
    runSteps bs.length s = .next { s with rxq := rest, bodyBuf := s.bodyBuf ++ bs, agenda := later } := by
  induction bs generalizing s with
  | nil =>
    obtain rfl : s.rxq = rest := hq
    obtain rfl : s.agenda = later := ha
    rw [List.append_nil]
    rfl
  | cons b bs ih =>
    rw [List.length_cons] at hn
    have hn' : (s.bodyBuf ++ [b]).length + bs.length ≤ s.frLen.toNat := by simp; omega
    rw [List.length_cons, runSteps_succ _ (step_bodyByte hm hl hq (by omega) ha)]
    refine (ih (s := { s with
      rxq := bs ++ rest, bodyBuf := s.bodyBuf ++ [b], agenda := List.replicate bs.length .deframer ++ later })
      hm hl rfl hn' rfl).trans ?_
    simp

/-- The five turns of a header with the marker. -/
theorem run_markedHeader {hi lo code : Byte} {rest : List Byte} {later : List Turn} {s : State} (hm : s.rxMode = .hdr)
    (hb : s.hdrBuf = []) (hc : s.cancel = false) (hl : s.link = true)
    (hq : s.rxq = 0x5A#8 :: 0xA5#8 :: hi :: lo :: code :: rest)
    (ha : s.agenda = List.replicate 5 .deframer ++ later) :
    runSteps 5 s = .next { s with
      rxq := rest, hdrBuf := [], bodyBuf := [], rxMode := .body, frLen := hi ++ lo, frCode := code
      agenda := later } := by
  have hfour := run_headerBytes [0x5A#8, 0xA5#8, hi, lo] (later := .deframer :: later) hm hc hl hq (by simp [hb]) ha
  have hfifth := step_markedHeader (s := { s with
    rxq := code :: rest, hdrBuf := s.hdrBuf ++ [0x5A#8, 0xA5#8, hi, lo], agenda := .deframer :: later })
    hm hc hl rfl (by rw [hb]; rfl) rfl
  exact (runSteps_add 4 1 hfour).trans (runSteps_succ 0 hfifth)

/-- Settles O37: after four bytes taken, the fifth is checked and all five are discarded. -/
theorem mismatchedHeaderIsDiscardedWhole : Obligations.MismatchedHeaderIsDiscardedWhole := by
  intro s b0 b1 b2 b3 b4 rest later hm hb hc hl hq hbad ha
  have hfour := run_headerBytes [b0, b1, b2, b3] (later := .deframer :: later) hm hc hl hq (by simp [hb]) ha
  have hfifth := step_wrongHeader (s := { s with
    rxq := b4 :: rest, hdrBuf := s.hdrBuf ++ [b0, b1, b2, b3], agenda := .deframer :: later })
    hm hc hl rfl (by rw [hb]; rfl) hbad rfl
  refine ((runSteps_add 4 1 hfour).trans (runSteps_succ 0 hfifth)).trans ?_
  rw [← hb]
  rfl

/-- The turns of a body: its payload bytes, then the two that are discarded unread. -/
theorem run_body (q : List Byte) {x y : Byte} {rest : List Byte} {later : List Turn} {s : State} (hm : s.rxMode = .body)
    (hb : s.bodyBuf = []) (hl : s.link = true) (hq : s.rxq = q ++ x :: y :: rest) (hn : s.frLen.toNat = q.length + 1)
    (ha : s.agenda = List.replicate (q.length + 2) .deframer ++ later) :
    runSteps (q.length + 2) s = .next { s with
      rxq := rest, bodyBuf := [], rxMode := .hdr, evq := s.evq ++ [.payload (s.frCode :: q)], agenda := later } := by
  have hfront := run_bodyBytes (q ++ [x]) (rest := y :: rest) (later := .deframer :: later) hm hl (by simp [hq])
    (by simp [hb, hn]) (by rw [ha, List.replicate_succ']; simp)
  have hlast := step_delivery (s := { s with
    rxq := y :: rest, bodyBuf := s.bodyBuf ++ (q ++ [x]), agenda := .deframer :: later })
    hm hl rfl (by simp [hb, hn]) (by simp [hn]) rfl
  rw [show q.length + 2 = (q ++ [x]).length + 1 by simp, runSteps_add _ 1 hfront, runSteps_succ 0 hlast, runSteps_zero]
  simp [hb, hn]

/-- Settles O36: the header's five turns latch LEN and the code byte, and the body's deliver the payload. -/
theorem deframingAnEncodedFrameDeliversIt : Obligations.DeframingAnEncodedFrameDeliversIt := by
  intro p s later hpos hmax hm hh hb hc hl hq ha
  obtain ⟨code, q, rfl⟩ := List.exists_cons_of_length_pos hpos
  rw [frameEncode_eq] at hq
  rw [List.length_cons] at ha hmax ⊢
  have hheader := run_markedHeader (later := List.replicate (q.length + 2) .deframer ++ later) hm hh hc hl hq
    (by rw [ha, ← List.append_assoc, ← List.replicate_add, Nat.add_comm 5])
  rw [List.length_cons, ← be16Val_append, be16Val_lenBytes] at hheader
  have hbody := run_body q (x := 0xED#8) (y := 0xED#8) (rest := []) (later := later) (s := { s with
    rxq := q ++ [0xED#8, 0xED#8], hdrBuf := [], bodyBuf := [], rxMode := .body
    frLen := BitVec.ofNat 16 (q.length + 1), frCode := code
    agenda := List.replicate (q.length + 2) .deframer ++ later }) rfl rfl hl rfl (by simp; omega) rfl
  rw [show q.length + 1 + 6 = 5 + (q.length + 2) by omega, runSteps_add _ _ hheader]
  refine hbody.trans ?_
  simp [hm, hh, hb]

end Sys2Proof.Proofs
end

section
/-! The decoder and the encoder (30_encoding.md R75 to R80): each row read back from its payload, all the decoder can
answer, and the prefixes outside the catalog. -/

namespace Sys2Proof.Proofs

open Sys2Proof.Machine Sys2Proof.Safety Sys2Proof.Config

/-! ## The operand fields -/

theorem decU8_byteOf {v : Int} (h : inU8 v = true) : decU8 (byteOf v) = v := by
  have hrange : 0 ≤ v ∧ v ≤ 255 := of_decide_eq_true h
  simp only [decU8, byteOf, BitVec.toNat_ofInt, Int.ofNat_eq_natCast]
  omega

/-- A byte read back is in range. -/
theorem inU8_decU8 (b : Byte) : inU8 (decU8 b) = true := by
  have := b.isLt
  rw [inU8, decide_eq_true_eq, decU8, Int.ofNat_eq_natCast]
  omega

theorem decBool_encBool (b : Bool) : decBool (encBool b) = b := by cases b <;> rfl

theorem decMode10_mode10 (bySid : Bool) : decMode10 (mode10 bySid) = bySid := by cases bySid <;> rfl

theorem decMode25_mode25 (bySid : Bool) : decMode25 (mode25 bySid) = bySid := by cases bySid <;> rfl

/-- The selected opcode is `P_CHMON_OP1` exactly when the selector is 1. -/
theorem chmonSelect_beq (P : Params) (sel : Bool) : (chmonSelect P sel == P.chmonOp1) = sel := by
  cases sel with
  | true => rw [chmonSelect_true]; exact beq_self_eq_true _
  | false => rw [chmonSelect_false]; cases P.chmonOp1 <;> rfl

/-- The override is read back from the opcode it selects. -/
theorem decOverride_chmonSelect (P : Params) (dataMode override : Bool) :
    decOverride P dataMode (chmonSelect P (Bool.xor dataMode override)) = override := by
  rw [decOverride, chmonSelect_beq, Bool.xor_comm dataMode, Bool.xor_assoc, Bool.xor_self, Bool.xor_false]

/-! ## From the payload of a row to its command -/

theorem lookup_channelMonitor (P : Params) (dataMode : Bool) (op : ChmonOp) (ch sv ty inf ext : Byte) :
    lookup P dataMode [chmonByte op, ch, sv, ty, inf, ext] =
      .ok (.channelMonitor (decU8 ch) (decBool sv) (decBool ty) (decBool inf) (decBool ext) (decOverride P dataMode op),
        []) := by
  cases op <;> rfl

/-- The lookup finds a command with a fixed row in its payload, and reads its operands back. -/
theorem lookup_of_encode {P : Params} {dataMode : Bool} {i : Instr} {p : List Byte} (hrow : hasFixedRow i = true)
    (hwf : i.wf = true) (hp : encode P dataMode i = some p) : ∃ rest, lookup P dataMode p = .ok (i, rest) := by
  cases i with
  | setLineLevel | dataFwVersion | auxToggle | sendRaw | crcInit | crcByte | crcRead | crcCompute | crcValidate
  | directEnable | openSession | closeSession => cases hrow
  | channelMonitor ch sv ty inf ext ov =>
    cases hp
    simp only [Instr.wf, Instr.ranges, List.all_cons, List.all_nil, Bool.and_true] at hwf
    exact ⟨[], by simp only [lookup_channelMonitor, decU8_byteOf hwf, decBool_encBool, decOverride_chmonSelect]⟩
  | radioId | signalInfo | dataPing | fwVersion | directListen | directUnmute => cases hp; exact ⟨_, rfl⟩
  | _ =>
    cases hp
    simp only [Instr.wf, Instr.ranges, List.all_cons, List.all_nil, Bool.and_true, Bool.and_eq_true] at hwf
    refine ⟨[], show Except.ok (_, _) = _ from ?_⟩
    simp only [decU8_byteOf, decBool_encBool, decMode10_mode10, decMode25_mode25, hwf]

theorem producedBy_fixedRow {P : Params} {dataMode : Bool} {i : Instr} {p : List Byte} (hrow : hasFixedRow i = true) :
    producedBy P dataMode i p = true ↔ encode P dataMode i = some p := by
  unfold producedBy
  split
  · cases hrow
  · exact beq_iff_eq

/-- A payload whose command is found and produces it decodes to that command. -/
theorem decodePayload_of_lookup {P : Params} {dataMode : Bool} {i : Instr} {p rest : List Byte}
    (hl : lookup P dataMode p = .ok (i, rest)) (hp : producedBy P dataMode i p = true) :
    decodePayload P dataMode p = .ok i := by
  simp only [decodePayload, hl]
  exact if_pos hp

/-- Decoding the payload of a command with a fixed row gives the command back. -/
theorem decodePayload_of_encode {P : Params} {dataMode : Bool} {i : Instr} {p : List Byte} (hrow : hasFixedRow i = true)
    (hwf : i.wf = true) (hp : encode P dataMode i = some p) : decodePayload P dataMode p = .ok i := by
  obtain ⟨rest, hl⟩ := lookup_of_encode hrow hwf hp
  exact decodePayload_of_lookup hl ((producedBy_fixedRow hrow).2 hp)

/-- Settles O8: each payload is what the encoder makes of the command. -/
theorem decoderReadsTheSpecsWords : Obligations.DecoderReadsTheSpecsWords := fun _ _ =>
  ⟨decodePayload_of_encode (i := .changeChannel false 1 false 0) rfl rfl rfl,
    decodePayload_of_encode (i := .channelInfo true 42 0) rfl rfl rfl,
    decodePayload_of_encode (i := .dataSelect 240 true false) rfl rfl rfl,
    decodePayload_of_encode (i := .diagMonitor true) rfl rfl rfl,
    decodePayload_of_encode (i := .fwVersion) rfl rfl rfl,
    decodePayload_of_encode (i := .directPower true false) rfl rfl rfl⟩

/-! ## All the decoder can answer -/

/-- What the lookup finds: a command with a fixed row, its operands in range, or `SET_LINE_LEVEL` under `0B`. -/
def FoundInRow (i : Instr) (p rest : List Byte) : Prop :=
  (hasFixedRow i = true ∧ i.wf = true) ∨ ∃ g e, i = .setLineLevel g ∧ p = 0x0B#8 :: e :: rest

theorem lookupOne_found {P : Params} {dataMode : Bool} {op : Byte} {args : List Byte} {i : Instr} {rest : List Byte}
    (h : lookupOne P dataMode op args = .ok (i, rest)) : FoundInRow i (op :: args) rest := by
  unfold lookupOne at h
  split at h
  case h_5 g tail hop =>
    cases h
    exact .inr ⟨_, g, rfl, by rw [BitVec.eq_of_toNat_eq (y := 0x0B#8) hop]⟩
  all_goals cases h
  all_goals exact .inl ⟨rfl, by simp [Instr.wf, Instr.ranges, inU8_decU8]⟩

theorem lookupTwo_found {op sub : Byte} {args : List Byte} {i : Instr} {rest : List Byte}
    (h : lookupTwo op sub args = .ok (i, rest)) : hasFixedRow i = true ∧ i.wf = true := by
  unfold lookupTwo at h
  split at h
  all_goals cases h
  all_goals exact ⟨rfl, by simp [Instr.wf, Instr.ranges, inU8_decU8]⟩

theorem lookup_found {P : Params} {dataMode : Bool} {p : List Byte} {i : Instr} {rest : List Byte}
    (h : lookup P dataMode p = .ok (i, rest)) : FoundInRow i p rest := by
  unfold lookup at h
  split at h
  · cases h
  · split at h
    · split at h
      · cases h
      · exact .inl (lookupTwo_found h)
    · exact lookupOne_found h

/-- The decoder gives the command of a row that produces the payload, or else reads the payload as a parameter's. -/
theorem decodePayload_cases (P : Params) (dataMode : Bool) (p : List Byte) :
    (∃ i, decodePayload P dataMode p = .ok i ∧ hasFixedRow i = true ∧ i.wf = true ∧ encode P dataMode i = some p) ∨
    (∃ g e, decodePayload P dataMode p = .ok (.setLineLevel g) ∧ p = [0x0B#8, e]) ∨
    ∃ err, decodePayload P dataMode p = lookupParameter P p err := by
  cases hl : lookup P dataMode p with
  | error err => exact .inr (.inr ⟨err, by simp only [decodePayload, hl]⟩)
  | ok found =>
    obtain ⟨i, rest⟩ := found
    by_cases hp : producedBy P dataMode i p = true
    · have hd := decodePayload_of_lookup hl hp
      rcases lookup_found hl with ⟨hrow, hwf⟩ | ⟨g, e, rfl, rfl⟩
      · exact .inl ⟨i, hd, hrow, hwf, (producedBy_fixedRow hrow).1 hp⟩
      · have hrest : rest = [] := by simpa [producedBy] using hp
        exact .inr (.inl ⟨g, e, hd, by rw [hrest]⟩)
    · exact .inr (.inr ⟨_, by simp only [decodePayload, hl]; exact if_neg hp⟩)

/-- A command read from a parameter's payload has that payload. -/
theorem encode_of_lookupParameter {P : Params} {p : List Byte} {err : DecodeError} {i : Instr} (dataMode : Bool)
    (h : lookupParameter P p err = .ok i) : encode P dataMode i = some p := by
  unfold lookupParameter at h
  split at h
  · rename_i hp; cases h; exact eq_of_beq hp
  split at h
  · rename_i hp; cases h; exact eq_of_beq hp
  split at h
  · rename_i hp; cases h; exact eq_of_beq hp
  · cases h

/-- Settles O10, by the three things the decoder can answer. -/
theorem decodedPayloadIsTheCommandsOwn : Obligations.DecodedPayloadIsTheCommandsOwn := by
  intro P dataMode p i h
  rcases decodePayload_cases P dataMode p with ⟨j, hd, _, _, hp⟩ | ⟨g, e, hd, rfl⟩ | ⟨err, hd⟩ <;> rw [hd] at h
  · cases h; exact .inl hp
  · cases h; exact .inr ⟨⟨g, rfl⟩, e, rfl⟩
  · exact .inl (encode_of_lookupParameter dataMode h)

/-! ## The parameters' payloads -/

theorem lookupParameter_dataFwVersion {P : Params} {p : List Byte} (err : DecodeError) (hp : P.dataFwPayload = some p) :
    lookupParameter P p err = .ok .dataFwVersion :=
  if_pos (beq_iff_eq.2 hp)

theorem lookupParameter_auxToggle {P : Params} {q : List Byte} (err : DecodeError) (on : Bool)
    (hq : P.auxPrefix = some q) (hne : P.dataFwPayload ≠ some (q ++ [encBool on])) :
    lookupParameter P (q ++ [encBool on]) err = .ok (.auxToggle on) := by
  have hdata : ¬(encode P false .dataFwVersion == some (q ++ [encBool on])) = true := by simpa [encode] using hne
  rw [lookupParameter, if_neg hdata]
  cases on <;> simp [encode, hq, encBool]

/-- Settles O9: a row is found and its operands are read back; a payload of no row is read as a parameter's. -/
theorem decodeOfEncodeIsTheCommand : Obligations.DecodeOfEncodeIsTheCommand := by
  intro P dataMode
  refine ⟨fun i p => decodePayload_of_encode, fun gain p hp => ?gain, fun p hnoRow hnoGain => ?parameter⟩
  case gain =>
    cases hp
    exact ⟨_, decodePayload_of_lookup rfl rfl⟩
  case parameter =>
    obtain ⟨err, hd⟩ : ∃ err, decodePayload P dataMode p = lookupParameter P p err := by
      rcases decodePayload_cases P dataMode p with ⟨i, _, hrow, hwf, hp⟩ | ⟨_, e, _, hp⟩ | hparameter
      · exact absurd hp (hnoRow i hrow hwf)
      · exact absurd hp (hnoGain e)
      · exact hparameter
    rw [hd]
    refine ⟨lookupParameter_dataFwVersion err, fun on q hq hp hne => ?_⟩
    subst hp
    exact lookupParameter_auxToggle err on hq hne

/-! ## Prefixes outside the catalog -/

theorem lookupOne_reserved (P : Params) (dataMode : Bool) {op : Byte} (args : List Byte)
    (h : op.toNat ∉ [0x00, 0x01, 0x0B, 0x10, 0x11, 0x13, 0x22, 0x25, 0x31, 0x42, 0x43, 0x4A, 0x4E, 0x4F, 0x50, 0x60,
      0x70, 0x74]) : lookupOne P dataMode op args = .error (.reservedOpcode op) := by
  simp only [List.mem_cons, List.not_mem_nil, or_false, not_or] at h
  unfold lookupOne
  split
  case h_29 => rfl
  all_goals omega

/-- A second byte that no row of `op` uses. -/
theorem lookup_reservedSubcode (P : Params) (dataMode : Bool) {op sub : Byte} (args : List Byte)
    (hop : twoBytePrefix op = true) (h : lookupTwo op sub args = .error (.reservedSubcode op sub)) :
    lookup P dataMode (op :: sub :: args) = .error (.reservedSubcode op sub) :=
  (if_pos hop).trans h

/-- Settles O11: the first byte falls through the rows of `lookupOne`, the second through those of `lookupTwo`. -/
theorem reservedPrefixesAreRefused : Obligations.ReservedPrefixesAreRefused := by
  intro P dataMode op sub args
  refine ⟨fun h => ?first, fun h => lookup_reservedSubcode P dataMode args rfl ?sub4A,
    fun h => lookup_reservedSubcode P dataMode args rfl ?sub74,
    fun h => lookup_reservedSubcode P dataMode args rfl ?sub70⟩
  case first =>
    have hone : twoBytePrefix op = false := by
      simp only [twoBytePrefix, Bool.or_eq_false_iff, beq_eq_false_iff_ne, ne_eq, ← BitVec.toNat_inj]
      simp at h ⊢
      tauto
    simp only [lookup, hone]
    exact lookupOne_reserved P dataMode args h
  all_goals
    unfold lookupTwo
    split <;> simp_all

end Sys2Proof.Proofs
end

section
/-! The checksum function (41_checksum.md R151 to R160): a step is linear over XOR and has no kernel, from which the
residue and the detection of one-byte errors follow; and the requests that stream it and check a data frame. -/

namespace Sys2Proof.Proofs

open Sys2Proof.Machine Sys2Proof.Safety

/-- Settles O41, each value by its run. -/
theorem checksumHasTheSpecsValues : Obligations.ChecksumHasTheSpecsValues := by
  unfold Obligations.ChecksumHasTheSpecsValues
  decide +kernel

/-! ## The shift register -/

theorem crcShift_xor (a b : Word16) : crcShift (a ^^^ b) = crcShift a ^^^ crcShift b := by
  have hshift : (a ^^^ b) <<< 1 = (a <<< 1) ^^^ (b <<< 1) := BitVec.shiftLeft_xor_distrib a b 1
  unfold crcShift
  rw [BitVec.msb_xor, hshift]
  cases a.msb <;> cases b.msb
  case false.false => rfl
  case false.true => exact BitVec.xor_assoc _ _ _
  case true.false => simp only [Bool.xor_false, if_true, Bool.false_eq_true, if_false]; ac_rfl
  case true.true =>
    have hcancel : ∀ x y c : Word16, x ^^^ c ^^^ (y ^^^ c) = x ^^^ y := fun x y c => by
      rw [BitVec.xor_comm y c, BitVec.xor_assoc, ← BitVec.xor_assoc c c y, BitVec.xor_self, BitVec.zero_xor]
    exact (hcancel _ _ _).symm

theorem crcShifts_xor (n : Nat) (a b : Word16) : crcShifts n (a ^^^ b) = crcShifts n a ^^^ crcShifts n b := by
  induction n generalizing a b with
  | zero => rfl
  | succ n ih => rw [crcShifts, crcShift_xor, ih]; rfl

/-- Bits that stay below bit 15 are shifted only. -/
theorem crcShifts_small (n : Nat) {a : Word16} (h : a.toNat * 2 ^ n < 2 ^ 16) : crcShifts n a = a <<< n := by
  induction n generalizing a with
  | zero => simp [crcShifts]
  | succ n ih =>
    have hpos := Nat.two_pow_pos n
    rw [Nat.pow_succ] at h
    have htop : a.toNat < 2 ^ 15 := by nlinarith
    have hmsb : a.msb = false := BitVec.msb_eq_false_iff_two_mul_lt.2 (by omega)
    have hval : (a <<< 1).toNat = 2 * a.toNat := by
      rw [BitVec.toNat_shiftLeft, Nat.shiftLeft_eq]
      omega
    rw [crcShifts, crcShift, hmsb, if_neg Bool.false_ne_true, ih (by rw [hval]; linarith), ← BitVec.shiftLeft_add,
      Nat.add_comm]

/-- One iteration loses nothing: `1021` is odd and a shifted word is even, so only 0 shifts to 0. -/
theorem eq_zero_of_crcShift {a : Word16} (h : crcShift a = 0#16) : a = 0#16 := by
  have hval : (a <<< 1).toNat = 2 * a.toNat % 2 ^ 16 := by
    rw [BitVec.toNat_shiftLeft, Nat.shiftLeft_eq, Nat.pow_one, Nat.mul_comm]
  unfold crcShift at h
  split at h
  · have hodd : a <<< 1 = 0x1021#16 := BitVec.xor_eq_zero_iff.1 h
    rw [hodd, BitVec.toNat_ofNat] at hval
    omega
  · rename_i hmsb
    have htop := BitVec.msb_eq_false_iff_two_mul_lt.1 (Bool.eq_false_iff.2 hmsb)
    rw [h, BitVec.toNat_ofNat] at hval
    exact BitVec.eq_of_toNat_eq (by rw [BitVec.toNat_ofNat]; omega)

theorem crcShifts_injective (n : Nat) {a b : Word16} (h : crcShifts n a = crcShifts n b) : a = b := by
  induction n generalizing a b with
  | zero => exact h
  | succ n ih =>
    have hshift : crcShift a = crcShift b := ih h
    exact BitVec.xor_eq_zero_iff.1 (eq_zero_of_crcShift (by rw [crcShift_xor, hshift, BitVec.xor_self]))

/-! ## The step and the fold -/

theorem crcFold_append (acc : Word16) (d e : List Byte) : crcFold acc (d ++ e) = crcFold (crcFold acc d) e :=
  List.foldl_append

theorem crcFold_cons (acc : Word16) (b : Byte) (d : List Byte) : crcFold acc (b :: d) = crcFold (crcStep acc b) d := rfl

theorem crcStep_injective_acc {acc acc' : Word16} (b : Byte) (h : crcStep acc b = crcStep acc' b) : acc = acc' :=
  (BitVec.xor_left_inj _).1 (crcShifts_injective 8 h)

theorem crcStep_injective_byte (acc : Word16) {b b' : Byte} (h : crcStep acc b = crcStep acc b') : b = b' := by
  have hx : b.setWidth 16 <<< 8 = b'.setWidth 16 <<< 8 := (BitVec.xor_right_inj _).1 (crcShifts_injective 8 h)
  have hval := congrArg BitVec.toNat hx
  have hb := b.isLt
  have hb' := b'.isLt
  simp only [BitVec.toNat_shiftLeft, BitVec.toNat_setWidth, Nat.shiftLeft_eq] at hval
  exact BitVec.eq_of_toNat_eq (by omega)

/-- The accumulator after a byte string determines the one before it. -/
theorem crcFold_injective (d : List Byte) {acc acc' : Word16} (h : crcFold acc d = crcFold acc' d) : acc = acc' := by
  induction d generalizing acc acc' with
  | nil => exact h
  | cons b d ih => exact crcStep_injective_acc b (ih h)

/-- A change confined to one byte changes the checksum. -/
theorem crc16Genibus_ne_of_byte_ne (pre post : List Byte) {b b' : Byte} (hne : b ≠ b') :
    crc16Genibus (pre ++ b :: post) ≠ crc16Genibus (pre ++ b' :: post) := by
  intro h
  have hfold := (BitVec.xor_left_inj _).1 h
  rw [crcFold_append, crcFold_append, crcFold_cons, crcFold_cons] at hfold
  exact hne (crcStep_injective_byte _ (crcFold_injective post hfold))

/-! ## The residue -/

/-- The low byte of a word, as a word. -/
def lowByte (w : Word16) : Word16 := (w.extractLsb' 0 8).setWidth 16

theorem getLsbD_FF00 {i : Nat} (h : i < 16) : (0xFF00#16).getLsbD i = decide (8 ≤ i) := by
  revert i
  decide

theorem xor_ones (w : Word16) : w ^^^ 0xFFFF#16 = ~~~w := BitVec.xor_allOnes

/-- The high byte of a word's complement, XORed into the word, leaves `FF` above the low byte. -/
theorem xor_complement_high (w : Word16) :
    w ^^^ (((w ^^^ 0xFFFF#16).extractLsb' 8 8).setWidth 16 <<< 8) = 0xFF00#16 ^^^ lowByte w := by
  rw [xor_ones]
  apply BitVec.eq_of_getLsbD_eq
  intro i hi
  simp only [lowByte, BitVec.getLsbD_xor, BitVec.getLsbD_shiftLeft, BitVec.getLsbD_setWidth, BitVec.getLsbD_extractLsb',
    BitVec.getLsbD_not, getLsbD_FF00 hi]
  by_cases h8 : i < 8
  · simp [hi, h8, Nat.not_le.2 h8]
  · have hback : 8 + (i - 8) = i := by omega
    have hin : i - 8 < 8 := by omega
    have hin' : i - 8 < 16 := by omega
    simp [hi, h8, hback, hin, hin', Nat.not_lt.1 h8]

/-- The low byte of a word's complement, XORed under the low byte moved up, leaves `FF` there. -/
theorem xor_complement_low (w : Word16) :
    (lowByte w <<< 8) ^^^ (((w ^^^ 0xFFFF#16).extractLsb' 0 8).setWidth 16 <<< 8) = 0xFF00#16 := by
  rw [xor_ones]
  apply BitVec.eq_of_getLsbD_eq
  intro i hi
  simp only [lowByte, BitVec.getLsbD_xor, BitVec.getLsbD_shiftLeft, BitVec.getLsbD_setWidth, BitVec.getLsbD_extractLsb',
    BitVec.getLsbD_not, getLsbD_FF00 hi]
  by_cases h8 : i < 8
  · simp [h8, Nat.not_le.2 h8]
  · have hin : i - 8 < 8 := by omega
    have hin' : i - 8 < 16 := by omega
    simp [hi, h8, hin, hin', Nat.not_lt.1 h8]

/-- Running the accumulator over its own complement, high byte first, cancels it: the first step leaves its low byte
moved up beside a constant, and the second byte cancels that (R157). -/
theorem crcFold_complement (w : Word16) : crcFold w (be16 (w ^^^ 0xFFFF#16)) = 0x1D0F#16 := by
  have hlow : crcShifts 8 (lowByte w) = lowByte w <<< 8 := by
    refine crcShifts_small 8 ?_
    have := (w.extractLsb' 0 8).isLt
    rw [lowByte, BitVec.toNat_setWidth]
    omega
  have hhigh : crcStep w ((w ^^^ 0xFFFF#16).extractLsb' 8 8) = crcShifts 8 0xFF00#16 ^^^ (lowByte w <<< 8) := by
    rw [crcStep, xor_complement_high, crcShifts_xor, hlow]
  calc crcFold w (be16 (w ^^^ 0xFFFF#16))
      = crcStep (crcStep w ((w ^^^ 0xFFFF#16).extractLsb' 8 8)) ((w ^^^ 0xFFFF#16).extractLsb' 0 8) := rfl
    _ = crcShifts 8 (crcShifts 8 0xFF00#16 ^^^ 0xFF00#16) := by
        rw [hhigh, crcStep, BitVec.xor_assoc, xor_complement_low]
    _ = 0x1D0F#16 := by decide +kernel

/-- Settles O43: the checksum is the complement of the accumulator after the data. -/
theorem checksumResidueIsConstant : Obligations.ChecksumResidueIsConstant := by
  intro d
  have hres : crcFold 0xFFFF#16 (d ++ be16 (crc16Genibus d)) = 0x1D0F#16 := by
    rw [crcFold_append, crc16Genibus, crcFold_complement]
  exact ⟨hres, by rw [crc16Genibus, hres]; rfl⟩

/-! ## The requests -/

theorem ofInt_ofNat_toNat {n : Nat} (w : BitVec n) : BitVec.ofInt n (Int.ofNat w.toNat) = w := by
  rw [Int.ofNat_eq_natCast, BitVec.ofInt_natCast, BitVec.ofNat_toNat, BitVec.setWidth_eq]

/-- The validator on a checksum that is the value of a word. -/
theorem exec_crcValidate_word (data : List Byte) (w : Word16) (s : State) :
    exec (.crcValidate data (Int.ofNat w.toNat)) s =
      .next (afterReply s (if crc16Genibus data = w then .ok else .checksumMismatch)
        (.checksums w (crc16Genibus data))) := by
  have hw := w.isLt
  have hmax : Int.ofNat w.toNat ≤ 65535 := by rw [Int.ofNat_eq_natCast]; omega
  rw [exec_crcValidate_inRange data (c := Int.ofNat w.toNat) s (Int.natCast_nonneg _) hmax, ofInt_ofNat_toNat]

/-- Settles O44: the two strings have different checksums. -/
theorem validatorFindsOneByteErrors : Obligations.ValidatorFindsOneByteErrors := by
  intro pre post b b' s hne
  refine ⟨_, exec_crcValidate_word _ _ s, ?_⟩
  rw [if_neg (crc16Genibus_ne_of_byte_ne pre post hne).symm]
  exact List.getLast?_concat

/-- Settles O45: the validator compares the frame's checksum with that of its data, as the invariant does. -/
theorem frameCheckAnswersItsInvariant : Obligations.FrameCheckAnswersItsInvariant := by
  intro f s
  refine ⟨_, exec_crcValidate_word f.data f.checksum s, by simp [afterReply], ?_⟩
  have hvalid : validFrame f = true ↔ crc16Genibus f.data = f.checksum := by
    rw [validFrame, beq_iff_eq]
    exact eq_comm
  simp only [hvalid]
  exact List.getLast?_concat

/-- One request for each byte moves the accumulator over the byte string, with one reply each. -/
theorem execAll_crcBytes (data : List Byte) (rest : List Instr) (s : State) :
    ∃ t, execAll (data.map (fun b => .crcByte (Int.ofNat b.toNat)) ++ rest) s = execAll rest t ∧
      t.crcAcc = crcFold s.crcAcc data ∧ t.replies.length = s.replies.length + data.length ∧ t.serving = s.serving := by
  induction data generalizing s with
  | nil => exact ⟨s, rfl, rfl, rfl, rfl⟩
  | cons b data ih =>
    have hb := b.isLt
    have hexec : exec (.crcByte (Int.ofNat b.toNat)) s =
        .next { afterReply s .ok .none with crcAcc := crcStep s.crcAcc b } := by
      have hmax : Int.ofNat b.toNat ≤ 255 := by rw [Int.ofNat_eq_natCast]; omega
      rw [exec_crcByte_inRange (b := Int.ofNat b.toNat) s (Int.natCast_nonneg _) hmax, ofInt_ofNat_toNat]
    obtain ⟨t, hrun, hacc, hlen, hserving⟩ := ih { afterReply s .ok .none with crcAcc := crcStep s.crcAcc b }
    refine ⟨t, ?_, hacc, ?_, hserving⟩
    · rw [List.map_cons, List.cons_append, execAll, hexec]
      exact hrun
    · rw [hlen]
      simp [afterReply]
      omega

/-- Settles O42: `CRC_INIT` starts the accumulator, the bytes move it, and `CRC_READ` answers its complement. -/
theorem streamedChecksumIsTheFunction : Obligations.StreamedChecksumIsTheFunction := by
  intro data s
  obtain ⟨t, hrun, hacc, hlen, hserving⟩ :=
    execAll_crcBytes data [.crcRead] { afterReply s .ok .none with crcAcc := 0xFFFF#16 }
  have hcrc : t.crcAcc ^^^ 0xFFFF#16 = crc16Genibus data := by rw [hacc]; rfl
  refine ⟨afterReply t .ok (.crc (t.crcAcc ^^^ 0xFFFF#16)), ?_, ?_, ?_, hcrc⟩
  · rw [execAll, exec_crcInit]
    exact hrun
  · rw [hcrc, afterReply, hserving]
    exact List.getLast?_concat
  · simp only [afterReply, List.length_append, List.length_singleton] at hlen ⊢
    omega

end Sys2Proof.Proofs
end

section
/-! What a command reads and writes (42_command_encoder.md R182): a command is answered or transmits a payload that only
`DATA_MODE_ACTIVE` may choose, and of the requests only `CHANNEL_MONITOR` lets it. -/

namespace Sys2Proof.Proofs

open Sys2Proof.Machine Sys2Proof.Safety Sys2Proof.Config

/-! ## The two outcomes of a command -/

/-- In every state the command is answered alike, or in every state it transmits. -/
def CommandOutcome (i : Instr) : Prop :=
  (∃ st info, ∀ s, exec i s = .next (afterReply s st info)) ∨
  (∃ payload : Bool → List Byte, ∀ s, exec i s = .next (transmit (payload s.dataModeActive) s))

theorem commandOutcome_of_encode {i : Instr} {payload : Bool → List Byte}
    (hp : ∀ dataMode, encode Config.params dataMode i = some (payload dataMode)) : CommandOutcome i := by
  rcases rejected_or_transmits hp with ⟨_, _, he⟩ | ⟨_, he⟩
  · exact .inl ⟨_, _, he⟩
  · exact .inr he

theorem commandOutcome_of_isCommand {i : Instr} (h : isCommand i = true) : CommandOutcome i := by
  cases i with
  | sendRaw | crcInit | crcByte | crcRead | crcCompute | crcValidate | directEnable | openSession | closeSession =>
    cases h
  | dataFwVersion =>
    cases hp : Config.params.dataFwPayload with
    | none => exact .inl ⟨_, _, fun s => by rw [exec_dataFwVersion, hp, serveParameter_none]⟩
    | some p => exact commandOutcome_of_encode fun _ => hp
  | auxToggle on =>
    cases hp : Config.params.auxPrefix.map (· ++ [encBool on]) with
    | none => exact .inl ⟨_, _, fun s => by rw [exec_auxToggle, hp, serveParameter_none]⟩
    | some p => exact commandOutcome_of_encode fun _ => hp
  | _ => exact commandOutcome_of_encode fun _ => rfl

/-- Settles O23: neither a reply nor a frame writes another field. -/
theorem commandsWriteOnlyTheQueues : Obligations.CommandsWriteOnlyTheQueues := by
  intro i s t hc h
  rcases commandOutcome_of_isCommand hc with ⟨_, _, he⟩ | ⟨payload, he⟩ <;> rw [he] at h <;> cases h
  · rfl
  · rcases transmit_cases (payload s.dataModeActive) s with ⟨_, ht⟩ | ⟨_, ht⟩ <;> rw [ht] <;> rfl

/-- `t` is `s` with these bytes, events and reply appended, as far as the queues and the replies go. -/
def Appends (bytes : List Byte) (events : List Event) (reply : Reply) (s t : State) : Prop :=
  t.txq = s.txq ++ bytes ∧ t.evq = s.evq ++ events ∧ t.replies = s.replies ++ [reply]

theorem afterReply_appends (st : Status) (info : Info) (s : State) :
    Appends [] [] ⟨s.serving, st, info⟩ s (afterReply s st info) :=
  ⟨(List.append_nil _).symm, (List.append_nil _).symm, rfl⟩

/-- What `Transmit` appends is settled by the payload, the link and the requester. -/
theorem transmit_appends (p : List Byte) (link : Bool) (r : Nat) : ∃ bytes events reply,
    ∀ s : State, s.link = link → s.serving = r → Appends bytes events reply s (transmit p s) := by
  cases link with
  | true =>
    refine ⟨wireFrame p, [.cmdSent p], ⟨r, .ok, .payload p⟩, fun s hl hr => ?_⟩
    rw [transmit_up p hl, ← hr]
    exact ⟨rfl, rfl, rfl⟩
  | false =>
    refine ⟨[], [], ⟨r, .transportUnavailable, .none⟩, fun s hl hr => ?_⟩
    rw [transmit_down p hl, ← hr]
    exact afterReply_appends _ _ s

/-- What a command appends is settled by its operands, the link, the data mode and the requester. -/
theorem command_appends {i : Instr} (hc : isCommand i = true) (link dataMode : Bool) (r : Nat) :
    ∃ bytes events reply, ∀ s t : State, s.link = link → s.dataModeActive = dataMode → s.serving = r →
      exec i s = .next t → Appends bytes events reply s t := by
  rcases commandOutcome_of_isCommand hc with ⟨st, info, he⟩ | ⟨payload, he⟩
  · refine ⟨[], [], ⟨r, st, info⟩, fun s t _ _ hr h => ?_⟩
    rw [he] at h; cases h
    rw [← hr]
    exact afterReply_appends st info s
  · obtain ⟨bytes, events, reply, happ⟩ := transmit_appends (payload dataMode) link r
    refine ⟨bytes, events, reply, fun s t hl hd hr h => ?_⟩
    rw [he, hd] at h; cases h
    exact happ s hl hr

/-- Settles O25: both states append what the shared link, data mode and requester settle. -/
theorem commandsReadOnlyTheLinkAndTheDataMode : Obligations.CommandsReadOnlyTheLinkAndTheDataMode := by
  intro i s s' t t' hc hl hd hr h h'
  obtain ⟨bytes, events, reply, happ⟩ := command_appends hc s.link s.dataModeActive s.serving
  obtain ⟨htx, hev, hre⟩ := happ s t rfl rfl rfl h
  obtain ⟨htx', hev', hre'⟩ := happ s' t' hl.symm hd.symm hr.symm h'
  exact ⟨bytes, events, reply, htx, htx', hev, hev', hre, hre'⟩

/-! ## Who reads `DATA_MODE_ACTIVE` -/

/-- The outcome with another value of `DATA_MODE_ACTIVE` is the same outcome with that value kept. -/
def IgnoresDataMode (i : Instr) : Prop :=
  ∀ (s t : State) (b : Bool), exec i s = .next t →
    exec i { s with dataModeActive := b } = .next { t with dataModeActive := b }

/-- A meaning that commutes with a change of `DATA_MODE_ACTIVE`. -/
theorem ignoresDataMode_of_commutes {i : Instr} {f : State → State} (he : ∀ s, exec i s = .next (f s))
    (hf : ∀ s b, f { s with dataModeActive := b } = { f s with dataModeActive := b }) : IgnoresDataMode i := by
  intro s t b h
  rw [he] at h; cases h
  rw [he, hf]

theorem transmit_dataMode_update (p : List Byte) (s : State) (b : Bool) :
    transmit p { s with dataModeActive := b } = { transmit p s with dataModeActive := b } := by
  rcases transmit_cases p s with ⟨hl, h⟩ | ⟨hl, h⟩ <;> rw [h]
  · exact transmit_up p hl
  · exact transmit_down p hl

/-- A payload that does not depend on the data mode. -/
theorem ignoresDataMode_of_encode {i : Instr} {p : List Byte}
    (hp : ∀ dataMode, encode Config.params dataMode i = some p) : IgnoresDataMode i := by
  cases hf : firstOutOfU8 (u8Operands i) with
  | some k =>
    exact ignoresDataMode_of_commutes (fun s => by rw [exec_of_encode (hp _), serveCommand_bad p s hf]) fun _ _ => rfl
  | none =>
    exact ignoresDataMode_of_commutes (fun s => by rw [exec_of_encode (hp _), serveCommand_ok p s hf])
      (transmit_dataMode_update p)

theorem ignoresDataMode_of_rejected {i : Instr} (h : Rejected i) : IgnoresDataMode i := by
  obtain ⟨_, _, he⟩ := h
  exact ignoresDataMode_of_commutes he fun _ _ => rfl

theorem ignoresDataMode_of_answered {i : Instr} (h : Answered i) : IgnoresDataMode i := by
  obtain ⟨_, _, _, _, _, he⟩ := h
  exact ignoresDataMode_of_commutes he fun _ _ => rfl

theorem ignoresDataMode_sendRaw (p : List Byte) : IgnoresDataMode (.sendRaw p) := by
  by_cases hp : p.length ≤ 65535
  · exact ignoresDataMode_of_commutes (fun s => exec_sendRaw_fits s hp) (transmit_dataMode_update p)
  · exact ignoresDataMode_of_commutes (fun s => exec_sendRaw_tooLong s (by omega)) fun _ _ => rfl

theorem ignoresDataMode_directEnable (f1 f2 : Bool) : IgnoresDataMode (.directEnable f1 f2) := by
  refine ignoresDataMode_of_commutes (f := directEnable Config.params f1 f2) (fun _ => rfl) fun s b => ?_
  by_cases hq : s.seqStep = .idle
  · rcases Bool.eq_false_or_eq_true s.link with hl | hl
    · rw [directEnable_up _ _ _ hq hl, directEnable_up (s := { s with dataModeActive := b }) _ _ _ hq hl]
      rfl
    · rw [directEnable_down _ _ _ hq hl, directEnable_down (s := { s with dataModeActive := b }) _ _ _ hq hl]
      rfl
  · rw [directEnable_held _ _ _ hq, directEnable_held (s := { s with dataModeActive := b }) _ _ _ hq]

theorem cancelSequence_idle {s : State} (hq : s.seqStep = .idle) : cancelSequence s = s := by
  rw [cancelSequence, hq]

theorem cancelSequence_running {s : State} (hq : s.seqStep ≠ .idle) :
    cancelSequence s = endSequence .cancelled .none s := by
  rcases cancelSequence_cases s with ⟨hidle, _⟩ | ⟨_, h⟩
  · exact absurd hidle hq
  · exact h

theorem cancelSequence_dataMode_update (s : State) (b : Bool) :
    cancelSequence { s with dataModeActive := b } = { cancelSequence s with dataModeActive := b } := by
  by_cases hq : s.seqStep = .idle
  · rw [cancelSequence_idle hq, cancelSequence_idle (s := { s with dataModeActive := b }) hq]
  · rw [cancelSequence_running hq, cancelSequence_running (s := { s with dataModeActive := b }) hq]
    rfl

theorem acceptJoin_held (kind : JoinKind) {s : State} (hj : s.join ≠ none) : acceptJoin kind s = s := by
  rcases acceptJoin_cases kind s with ⟨_, h⟩ | ⟨hnone, _⟩ | ⟨hnone, _⟩
  · exact h
  · exact absurd hnone hj
  · exact absurd hnone hj

/-- With none held a sequence is ended and the request is held. -/
theorem acceptJoin_none (kind : JoinKind) {s : State} (hj : s.join = none) :
    acceptJoin kind s =
      { cancelSequence { accept s with cancel := true } with join := some ⟨s.serving, kind⟩ } := by
  rw [acceptJoin, hj]

theorem acceptJoin_dataMode_update (kind : JoinKind) (s : State) (b : Bool) :
    acceptJoin kind { s with dataModeActive := b } = { acceptJoin kind s with dataModeActive := b } := by
  by_cases hj : s.join = none
  · rw [acceptJoin_none kind hj, acceptJoin_none (s := { s with dataModeActive := b }) kind hj]
    exact congrArg (fun t : State => { t with join := some ⟨s.serving, kind⟩ })
      (cancelSequence_dataMode_update { accept s with cancel := true } b)
  · rw [acceptJoin_held kind hj, acceptJoin_held (s := { s with dataModeActive := b }) kind hj]

/-- Settles O24: the payload of every other command is the same for both data modes, and no host operation reads it. -/
theorem dataModeIsReadByChannelMonitorOnly : Obligations.DataModeIsReadByChannelMonitorOnly := by
  intro i s t b hmonitor h
  have hignores : IgnoresDataMode i := by
    cases i with
    | channelMonitor ch sv ty inf ext ov => exact absurd rfl (hmonitor ch sv ty inf ext ov)
    | dataFwVersion =>
      cases hp : Config.params.dataFwPayload with
      | none =>
        exact ignoresDataMode_of_commutes (fun s => by rw [exec_dataFwVersion, hp, serveParameter_none]) fun _ _ => rfl
      | some p => exact ignoresDataMode_of_encode fun _ => hp
    | auxToggle on =>
      cases hp : Config.params.auxPrefix.map (· ++ [encBool on]) with
      | none =>
        exact ignoresDataMode_of_commutes (fun s => by rw [exec_auxToggle, hp, serveParameter_none]) fun _ _ => rfl
      | some p => exact ignoresDataMode_of_encode fun _ => hp
    | sendRaw p => exact ignoresDataMode_sendRaw p
    | crcInit => exact ignoresDataMode_of_commutes exec_crcInit fun _ _ => rfl
    | crcByte v => exact (crcByte_outcome v).elim ignoresDataMode_of_rejected ignoresDataMode_of_answered
    | crcRead => exact ignoresDataMode_of_commutes exec_crcRead fun _ _ => rfl
    | crcCompute data => exact ignoresDataMode_of_commutes (exec_crcCompute data) fun _ _ => rfl
    | crcValidate data c =>
      exact (crcValidate_outcome data c).elim ignoresDataMode_of_rejected ignoresDataMode_of_answered
    | directEnable f1 f2 => exact ignoresDataMode_directEnable f1 f2
    | openSession => exact ignoresDataMode_of_commutes exec_openSession (acceptJoin_dataMode_update .opening)
    | closeSession => exact ignoresDataMode_of_commutes exec_closeSession (acceptJoin_dataMode_update .closing)
    | _ => exact ignoresDataMode_of_encode fun _ => rfl
  exact hignores s t b h

end Sys2Proof.Proofs
end

section
/-! Power-on, the turns, the port, the accepting step of `DIRECT_ENABLE` with its whole sequence, a second `OPEN` or
`CLOSE`, and the status codes. -/

namespace Sys2Proof.Proofs

open Sys2Proof.Machine Sys2Proof.Safety Sys2Proof.Config

/-- Settles O2: the buffers are empty, nothing is pending or held, and the inputs are the arguments. -/
theorem powerOnMeetsTheInvariant : Obligations.PowerOnMeetsTheInvariant := by
  intro link dataMode
  have hlegal : Legal (State.powerOn link dataMode) :=
    (legal_iff _).2 ⟨buffersFit_of_empty rfl rfl, ⟨fun _ => rfl, fun _ => rfl⟩, absurd rfl, List.nodup_nil⟩
  exact ⟨hlegal, rfl, rfl⟩

/-! ## Turns -/

/-- A turn of the request agent for a requester that presents a request. -/
theorem step_serve {s : State} {r : Nat} {q : Request} {rest : List Turn} (ha : s.agenda = .serve r :: rest)
    (hp : presented r s = some q) : step s = exec q.op { s with agenda := rest, serving := r } := by
  have hp' : presented r { s with agenda := rest } = some q := hp
  simp only [step, stepAgenda, ha, runTurn, serveTurn, hp']

/-- A turn of the request agent for a requester that presents nothing. -/
theorem step_serve_none {s : State} {r : Nat} {rest : List Turn} (ha : s.agenda = .serve r :: rest)
    (hp : presented r s = none) : step s = .next { s with agenda := rest } := by
  have hp' : presented r { s with agenda := rest } = none := hp
  simp only [step, stepAgenda, ha, runTurn, serveTurn, hp']

/-- Settles O5, by the turn of the request agent that finds a request. -/
theorem stepServesThePresentedRequest : Obligations.StepServesThePresentedRequest := fun _ _ _ _ ha hp =>
  step_serve ha hp

/-- Settles O6: but for the request agent's, which asks whether a request is presented, each turn is its operation. -/
theorem stepTakesTheNextTurn : Obligations.StepTakesTheNextTurn := fun s rest =>
  ⟨rfl, fun r hp => step_serve_none (s := { s with agenda := .serve r :: rest }) rfl hp, fun _ _ => rfl, rfl, rfl, rfl,
    rfl, fun _ => rfl, fun _ => rfl, fun _ => rfl, rfl, rfl⟩

/-! ## The port -/

theorem presentRequest_of_mem {s : State} {r : Nat} (i : Instr) (h : r ∈ outstanding s) :
    presentRequest r i s = s :=
  if_pos (List.contains_iff_mem.2 h)

theorem presentRequest_of_notMem {s : State} {r : Nat} (i : Instr) (h : r ∉ outstanding s) :
    presentRequest r i s = { s with reqPort := s.reqPort ++ [⟨r, i⟩] } :=
  if_neg (mt List.contains_iff_mem.1 h)

/-- A requester with nothing outstanding presents no request. -/
theorem presented_of_notMem {s : State} {r : Nat} (h : r ∉ outstanding s) : presented r s = none := by
  refine List.find?_eq_none.2 fun q hq hr => h ?_
  rw [← eq_of_beq hr]
  exact List.mem_append_left _ (List.mem_append_left _ (List.mem_map_of_mem hq))

/-- Settles O7: a new request stands at the end of the port, behind requests of other requesters. -/
theorem presentingAddsOneRequest : Obligations.PresentingAddsOneRequest := by
  intro s r i
  refine ⟨fun h => ⟨presentRequest_of_notMem i h, ?_⟩, presentRequest_of_mem i⟩
  have hnone : s.reqPort.find? (fun q => q.requester == r) = none := presented_of_notMem h
  rw [presentRequest_of_notMem i h, presented, List.find?_append, hnone]
  simp

/-! ## The sequence -/

theorem exec_directEnable (f1 f2 : Bool) (s : State) :
    exec (.directEnable f1 f2) s = .next (directEnable Config.params f1 f2 s) := rfl

/-- Settles O46, by the accepting step with the link up and with the link down. -/
theorem directEnableStartsTheSequence : Obligations.DirectEnableStartsTheSequence := by
  intro f1 f2 s hq
  refine ⟨fun hl => ?_, fun hl => ?_⟩
  · rw [exec_directEnable, directEnable_up _ f1 f2 hq hl]; rfl
  · rw [exec_directEnable, directEnable_down _ f1 f2 hq hl]

/-- A served `DIRECT_ENABLE` with the sequencer IDLE and the link up sends the frame of step 1. -/
theorem step_sends1 {s : State} {r : Nat} {f1 f2 : Bool} {rest : List Turn} (ha : s.agenda = .serve r :: rest)
    (hp : presented r s = some ⟨r, .directEnable f1 f2⟩) (hq : s.seqStep = .idle) (hl : s.link = true) :
    step s = .next { accept { s with serving := r } with
      txq := s.txq ++ wireFrame (directPayload1 Config.params)
      evq := s.evq ++ [.cmdSent (directPayload1 Config.params)]
      seqF1 := f1, seqF2 := f2, seqStep := .wait1, seqReq := some r, agenda := rest } := by
  rw [step_serve ha hp, exec_directEnable,
    directEnable_up (s := { s with agenda := rest, serving := r }) _ f1 f2 hq hl]
  rfl

/-- A delay's end after step 1 with the link up sends the frame of step 2. -/
theorem step_sends2 {s : State} {rest : List Turn} (ha : s.agenda = .delayDone :: rest) (hq : s.seqStep = .wait1)
    (hl : s.link = true) :
    step s = .next { s with
      txq := s.txq ++ wireFrame (directPayload2 s.seqF1 s.seqF2)
      evq := s.evq ++ [.cmdSent (directPayload2 s.seqF1 s.seqF2)]
      seqStep := .wait2, agenda := rest } := by
  rw [step_delayDone ha, delayDone_wait1 (s := { s with agenda := rest }) _ hq,
    sequenceStep_up (s := { s with agenda := rest }) _ _ _ hl]

/-- A delay's end after step 2 with the link up sends the frame of step 3. -/
theorem step_sends3 {s : State} {rest : List Turn} (ha : s.agenda = .delayDone :: rest) (hq : s.seqStep = .wait2)
    (hl : s.link = true) :
    step s = .next { s with
      txq := s.txq ++ wireFrame (directPayload3 Config.params)
      evq := s.evq ++ [.cmdSent (directPayload3 Config.params)]
      seqStep := .wait3, agenda := rest } := by
  rw [step_delayDone ha, delayDone_wait2 (s := { s with agenda := rest }) _ hq,
    sequenceStep_up (s := { s with agenda := rest }) _ _ _ hl]

/-- A delay's end after step 3 gives the pending request its reply. -/
theorem step_endsSequence {s : State} {rest : List Turn} {r : Nat} (ha : s.agenda = .delayDone :: rest)
    (hq : s.seqStep = .wait3) (hr : s.seqReq = some r) :
    step s = .next { s with
      seqStep := .idle, seqReq := none, agenda := rest
      replies := s.replies ++ [⟨r, .ok, .payloads (directPayload1 Config.params) (directPayload2 s.seqF1 s.seqF2)
        (directPayload3 Config.params)⟩] } := by
  rw [step_delayDone ha, delayDone_wait3 (s := { s with agenda := rest }) _ hq,
    endSequence_pending (s := { s with agenda := rest }) _ _ hr]

/-- Settles O49: the accepting step and the three steps of `DELAY_DONE`, one after the other. -/
theorem sequenceSendsThreeFramesAndRepliesOnce : Obligations.SequenceSendsThreeFramesAndRepliesOnce := by
  intro f1 f2 r s later hq hl hp ha
  apply Exists.intro
  constructor
  · refine Eq.trans (runSteps_succ 3 (step_sends1 ha hp hq hl)) ?_
    refine Eq.trans (runSteps_succ 2 (step_sends2 rfl rfl hl)) ?_
    refine Eq.trans (runSteps_succ 1 (step_sends3 rfl rfl hl)) ?_
    exact runSteps_succ 0 (step_endsSequence rfl rfl rfl)
  · refine ⟨rfl, rfl, rfl, ?frames, ?events, rfl⟩
    case frames => simp
    case events => simp

/-! ## A second `OPEN` or `CLOSE`, and the codes -/

/-- Settles O52: both accepting steps ask that none is held. -/
theorem secondJoinIsHeld : Obligations.SecondJoinIsHeld := fun s hj => by
  rw [exec_openSession, exec_closeSession, acceptJoin_held _ hj, acceptJoin_held _ hj]
  exact ⟨rfl, rfl⟩

theorem statusOfCode_statusCode (st : Status) : statusOfCode (statusCode st) = some st := by
  cases st <;> rfl

theorem statusOfCode_reserved {c : Byte} (hmin : 0x09 ≤ c.toNat) (hmax : c.toNat ≤ 0x0F) : statusOfCode c = none := by
  unfold statusOfCode
  split
  case h_12 => rfl
  all_goals omega

/-- Settles O55: the code of each status is read back, and the reserved codes fall through the table. -/
theorem statusCodesAreTheSpecs : Obligations.StatusCodesAreTheSpecs :=
  ⟨statusOfCode_statusCode, rfl, rfl, rfl, rfl, rfl, rfl, rfl, rfl, rfl, rfl, rfl, fun _ => statusOfCode_reserved⟩

end Sys2Proof.Proofs
end
